-- ==== Sys2Proof/Word.lean ====
section
/-! DEFINITION. The fixed widths of the block (`00_scope.md` R10): bytes, the sample, counters, the step
index, command codes and line ids. Every value is unsigned and arithmetic is modulo 2^width (R15). -/

namespace Sys2Proof

/-- A bus byte, a micro-word (`00_scope.md` R10, `30_encoding.md` R80). -/
abbrev Byte := BitVec 8

/-- The 16-bit sample and report value (`10_state.md` R23, `43_control_ops.md` R176). -/
abbrev Half := BitVec 16

/-- A u32: the wait operand, `wait_cnt`, `poll_cnt` (`00_scope.md` R10). -/
abbrev U32 := BitVec 32

/-- A step address, the width of `upc` (`10_state.md` R26). -/
abbrev StepAddr := BitVec 6

/-- A command code on `cmd_i` (`30_encoding.md` R81). -/
abbrev CmdCode := BitVec 2

/-- A 3-bit line id (`10_state.md` R48), the width of `err_line` (R36). -/
abbrev LineId := BitVec 3

end Sys2Proof
end

