-- ==== Sys2Proof/Config.lean ====
section
/-! DEFINITION. What an implementation fixes and what the spec leaves free: the DigitalLines and their
directions, the static configuration of `00_scope.md` R9, the turns by which the outside agents act
(`00_scope.md` R12), and the free values. -/

namespace Sys2Proof

/-- The eight DigitalLines, the block's only address space (`10_state.md` R48, `20_memory.md` R66). Their
3-bit ids are `Line.id`. -/
inductive Line where
  | reset | convst | companion | chipSelect | readStrobe | busy | dataLow | dataHigh
  deriving DecidableEq, Repr, Inhabited

/-- The configured direction of a line (`10_state.md` R38). -/
inductive Direction where
  | output | input
  deriving DecidableEq, Repr, Inhabited

/-- `DIR[0..7]` (`10_state.md` R38), one field per line. -/
structure Directions where
  reset : Direction
  convst : Direction
  companion : Direction
  chipSelect : Direction
  readStrobe : Direction
  busy : Direction
  dataLow : Direction
  dataHigh : Direction
  deriving DecidableEq, Repr

/-- The nominal directions of `10_state.md` R38: lines 0 to 4 `Out`, lines 5 to 7 `In`. -/
def Directions.nominal : Directions where
  reset := .output
  convst := .output
  companion := .output
  chipSelect := .output
  readStrobe := .output
  busy := .input
  dataLow := .input
  dataHigh := .input

/-- The static configuration inputs of `00_scope.md` R9, constant for a run. The six time constants are the
document's `T[0..5]` in the order of `00_scope.md` R16. -/
structure Config where
  dir : Directions
  tReset : U32
  tConvstSettle : U32
  tBusyPoll : U32
  tCsSettle : U32
  tRdPulse : U32
  tRdRelease : U32
  maxBusyPolls : U32
  diagReadback : Bool
  combineLegacyMul : Bool
  companionAssertLevel : Bool
  companionDeassertLevel : Bool
  deriving DecidableEq, Repr

/-- The configuration of `State.reset`: nominal directions and the defaults of R9 for the four mode bits.
DESIGN CHOICE (log 2), unsafe: the OPEN parameters are the 1, ..., 1 and 10 of `95_test_vectors.md` P1. -/
def Config.standard : Config where
  dir := .nominal
  tReset := 1
  tConvstSettle := 1
  tBusyPoll := 1
  tCsSettle := 1
  tRdPulse := 1
  tRdRelease := 1
  maxBusyPolls := 10
  diagReadback := true
  combineLegacyMul := false
  companionAssertLevel := true
  companionDeassertLevel := false

/-- `MAX_BUSY_POLLS` is at least 1; every other value of every parameter is legal (`00_scope.md` R9,
`10_state.md` R40). -/
abbrev Config.Legal (c : Config) : Prop := c.maxBusyPolls ≠ 0#32

/-- One atomic action of one agent (`00_scope.md` R12): whose turn it is, and what an outside agent does in
it. The agents' interleaving is otherwise free (`20_memory.md` R69). -/
inductive Turn where
  /-- The Sequencer executes the micro-op at `upc`, if it is not held. -/
  | sequencer
  /-- The Timebase emits one tick (`42_timing_ops.md` R160). -/
  | tick
  /-- The Device sets the levels of `busy_i`, `data_low_i`, `data_high_i` (`10_state.md` R46). -/
  | device (busy : Bool) (dataLow dataHigh : Byte)
  /-- The Host sets `cmd_valid_i` and `cmd_i` (`10_state.md` R54). -/
  | host (valid : Bool) (code : CmdCode)
  /-- The Host sets the level of `hwreset_i` (`10_state.md` R54, `60_exceptions.md` R203). -/
  | hwreset (level : Bool)
  deriving DecidableEq, Repr, Inhabited

/-- FREE VALUE (log 1): whose turn it is, and what it brings, once the agenda of the state is used up. -/
opaque Config.freeTurn : Nat → Turn

/-- FREE VALUE (log 7): the level that a POLL reads on one of the lines 0 to 4. -/
opaque Config.freeLevel : Nat → Bool

/-- FREE VALUE (log 5): a data byte register after an HWRESET during a run (`10_state.md` R55). -/
opaque Config.freeByte : Nat → Byte

/-- FREE VALUE (log 5): `sample` after an HWRESET during a run (`10_state.md` R55). -/
opaque Config.freeHalf : Nat → Half

/-- The four byte-wide data ports (`10_state.md` R42). -/
inductive BytePort where
  | lowByte | highByte | diagLow | diagHigh
  deriving DecidableEq, Repr

/-- FREE VALUE (log 14): what a look of the host at a byte-wide data port shows while its valid flag is 0, by port and
by the number of the look. -/
opaque Config.freeByteRead : BytePort → Nat → Byte

/-- FREE VALUE (log 14): what a look of the host at `sample_o` shows while `sample_valid = 0`, by the number of the
look. -/
opaque Config.freeHalfRead : Nat → Half

end Sys2Proof
end

