-- ==== Sys2Proof/Syntax.lean ====
section
/-! DEFINITION. The instructions: one constructor per row of `opcode_table.json`. Ten are micro-operations of
the step ROM (`30_encoding.md` R84), two are the host's commands (R81). -/

namespace Sys2Proof

/-- The rows of the opcode table. A level, an exit level and the direction of a wait's continuation are
single bits (`30_encoding.md` R90). -/
inductive Instr where
  /-- `NOP` (`43_control_ops.md` R170). -/
  | nop
  /-- `SET line,v` (`41_line_ops.md` R141). -/
  | set (line : Line) (v : Bool)
  /-- `WAIT T[tsel]`, with `b` going back to `upc - 1` afterwards (`42_timing_ops.md` R162). -/
  | wait (tsel : BitVec 3) (b : Bool)
  /-- `POLL line,v` with exit level `v` (`41_line_ops.md` R146). -/
  | poll (line : Line) (v : Bool)
  /-- `CAPTURE 0` (`41_line_ops.md` R150). -/
  | capture0
  /-- `CAPTURE 1` (`41_line_ops.md` R151). -/
  | capture1
  /-- `SAMPLE` (`43_control_ops.md` R172). -/
  | sample
  /-- `WCMD` (`43_control_ops.md` R177). -/
  | wcmd
  /-- `RET m` for `m` 0 and 1 (`43_control_ops.md` R181). -/
  | ret (m : BitVec 1)
  /-- `RET 2` (`43_control_ops.md` R182). -/
  | ret2
  /-- Host command `CMD_RESET` (`40_host_commands.md` R111). -/
  | cmdReset
  /-- Host command `CMD_TRIGGER_AND_READ` (`40_host_commands.md` R120). -/
  | cmdTriggerAndRead
  deriving DecidableEq, Repr

end Sys2Proof
end

