-- ==== Sys2Proof/WellFormed.lean ====
section
/-! DEFINITION. Which terms of `Instr` are instructions of the spec. The only operand with reserved values
is `tsel` (`30_encoding.md` R87, R91); every line id suits SET and POLL as an encoding (R91). -/

namespace Sys2Proof

/-- `tsel` indexes one of the six time constants (`30_encoding.md` R87). -/
def Instr.wellFormed : Instr → Bool
  | .wait tsel _ => tsel.toNat ≤ 5
  | .nop | .set _ _ | .poll _ _ | .capture0 | .capture1 | .sample | .wcmd | .ret _ | .ret2 => true
  | .cmdReset | .cmdTriggerAndRead => true

end Sys2Proof
end

