-- ==== Sys2Proof/Decode.lean ====
section
/-! DEFINITION. Decoding and encoding (`30_encoding.md`). Two kinds of word exist, the 8-bit micro-word and the
2-bit command code (R80); the kind is known before decoding. Both decoders are total and reject by name. -/

namespace Sys2Proof

/-! ## Line ids -/

/-- The 3-bit id of a line (`20_memory.md` R66). -/
def Line.id : Line → LineId
  | .reset => 0
  | .convst => 1
  | .companion => 2
  | .chipSelect => 3
  | .readStrobe => 4
  | .busy => 5
  | .dataLow => 6
  | .dataHigh => 7

/-- The line that a 3-bit id names; every id names one (`20_memory.md` R62). -/
def Line.ofId : LineId → Line
  | 0#3 => .reset
  | 1#3 => .convst
  | 2#3 => .companion
  | 3#3 => .chipSelect
  | 4#3 => .readStrobe
  | 5#3 => .busy
  | 6#3 => .dataLow
  | 7#3 => .dataHigh

/-- The lines that are a whole byte wide (`20_memory.md` R61, R66). -/
def Line.isBus : Line → Bool
  | .dataLow | .dataHigh => true
  | .reset | .convst | .companion | .chipSelect | .readStrobe | .busy => false

/-! ## Decoding -/

/-- Why a word is no instruction (`30_encoding.md` R91, R82). -/
inductive Illegal where
  /-- A must-be-zero bit is 1. -/
  | mustBeZero
  /-- `tsel` is 6 or 7. -/
  | reservedTimeConstant
  /-- `m` is 3. -/
  | reservedReturnMode
  /-- The command code is `0b00` or `0b11`. -/
  | reservedCommand
  deriving DecidableEq, Repr

/-- Format `N`, and the must-be-zero test of every format: the bits of `reserved` are 0 in `w`
(`30_encoding.md` R85 to R89). -/
def requireZero (w reserved : Byte) (i : Instr) : Except Illegal Instr :=
  if w &&& reserved = 0 then .ok i else .error .mustBeZero

/-- Format `L`: line in `[4:2]`, bit 1 reserved, level in `[0]` (`30_encoding.md` R86). -/
def decodeL (w : Byte) (mk : Line → Bool → Instr) : Except Illegal Instr :=
  requireZero w 0x02 (mk (Line.ofId (w.extractLsb' 2 3)) (w.getLsbD 0))

/-- Format `T`: `b` in `[4]`, bit 3 reserved, `tsel` in `[2:0]` with 6 and 7 reserved (`30_encoding.md` R87). -/
def decodeT (w : Byte) : Except Illegal Instr :=
  let tsel := w.extractLsb' 0 3
  if tsel.toNat ≤ 5 then requireZero w 0x08 (.wait tsel (w.getLsbD 4)) else .error .reservedTimeConstant

/-- Format `C`: `[4:1]` reserved, destination in `[0]` (`30_encoding.md` R88). -/
def decodeC (w : Byte) : Except Illegal Instr :=
  requireZero w 0x1E (if w.getLsbD 0 then .capture1 else .capture0)

/-- Format `R`: `[4:2]` reserved, `m` in `[1:0]` with 3 reserved (`30_encoding.md` R89). -/
def decodeR (w : Byte) : Except Illegal Instr :=
  match w.extractLsb' 0 2 with
  | 0#2 => requireZero w 0x1C (.ret 0)
  | 1#2 => requireZero w 0x1C (.ret 1)
  | 2#2 => requireZero w 0x1C .ret2
  | 3#2 => .error .reservedReturnMode

/-- The decoder of micro-words: `op` in `[7:5]` selects micro-op and format (`30_encoding.md` R83, R84, R98). -/
def decode (w : Byte) : Except Illegal Instr :=
  match w.extractLsb' 5 3 with
  | 0#3 => requireZero w 0x1F .nop
  | 1#3 => decodeL w .set
  | 2#3 => decodeT w
  | 3#3 => decodeL w .poll
  | 4#3 => decodeC w
  | 5#3 => requireZero w 0x1F .sample
  | 6#3 => requireZero w 0x1F .wcmd
  | 7#3 => decodeR w

/-- The decoder of command codes (`30_encoding.md` R81, R98). -/
def decodeCmd (c : CmdCode) : Except Illegal Instr :=
  match c with
  | 0#2 => .error .reservedCommand
  | 1#2 => .ok .cmdReset
  | 2#2 => .ok .cmdTriggerAndRead
  | 3#2 => .error .reservedCommand

/-- A word together with its kind (`30_encoding.md` R80). -/
inductive Code where
  | microWord (w : Byte)
  | command (c : CmdCode)
  deriving DecidableEq, Repr

/-- Decoding of either kind of word (`30_encoding.md` R98). -/
def decodeCode : Code → Except Illegal Instr
  | .microWord w => decode w
  | .command c => decodeCmd c

/-! ## Encoding -/

/-- A single bit in bit 0 of a micro-word. -/
def bitByte (v : Bool) : Byte := if v then 1 else 0

/-- Format `L` (`30_encoding.md` R86): `base | line << 2 | v`. -/
def encodeL (base : Byte) (l : Line) (v : Bool) : Byte :=
  base ||| (l.id.setWidth 8 <<< 2) ||| bitByte v

/-- The encoding of an instruction (`30_encoding.md` R81, R85 to R89). -/
def encode : Instr → Code
  | .nop => .microWord 0x00
  | .set l v => .microWord (encodeL 0x20 l v)
  | .wait tsel b => .microWord (0x40 ||| (bitByte b <<< 4) ||| tsel.setWidth 8)
  | .poll l v => .microWord (encodeL 0x60 l v)
  | .capture0 => .microWord 0x80
  | .capture1 => .microWord 0x81
  | .sample => .microWord 0xA0
  | .wcmd => .microWord 0xC0
  | .ret m => .microWord (0xE0 ||| m.setWidth 8)
  | .ret2 => .microWord 0xE2
  | .cmdReset => .command 0b01
  | .cmdTriggerAndRead => .command 0b10

/-! ## The host's numbering of table words -/

/-- The kind of a word that the opcode table numbers `w` in `nbits` bits. Fewer than 8 bits is a command code.
In whole bytes the two kinds meet; the numbers 1 and 2 are illegal as micro-words (`NOP` with a nonzero
`arg`) and are the two command codes, and no other number is legal in both kinds (log 10). -/
def tableCode (nbits w : Nat) : Code :=
  if nbits < 8 then .command (BitVec.ofNat 2 w)
  else
    match w with
    | 1 => .command 1
    | 2 => .command 2
    | _ => .microWord (BitVec.ofNat 8 w)

/-- The instruction the decoder reads from a word of the opcode table. -/
def decodeTableWord (nbits w : Nat) : Option Instr :=
  (decodeCode (tableCode nbits w)).toOption

end Sys2Proof
end

