-- ==== Sys2Proof/Machine/State.lean ====
section
/-! DEFINITION. The state of the sequencer as plain data (`10_state.md` R20), its input ports and static
configuration, its observable record, the reasons a step can stop, and the state after hardware reset (R55). -/

namespace Sys2Proof.Machine

/-- Why the machine stops with a fault. No rule of the spec stops the sequencer: its errors are taken
(`60_exceptions.md` R196). -/
inductive Fault where
  /-- Raised by a read of the step ROM at an address above 63, which does not exist (`10_state.md` R28). Safe;
  no step raises it, since `upc` has 6 bits. -/
  | noSuchRomAddress (address : Nat)
  deriving DecidableEq, Repr

/-- Why the model gives no meaning. -/
inductive Refusal where
  /-- Raised by `exec` for an instruction that has no meaning yet. Safe. -/
  | notModelled (mnemonic : String)
  /-- Raised by the Sequencer's step on an illegal micro-word; the spec tells a model to refuse it
  (`30_encoding.md` R91, `93_implementation_defined.md` U6). Safe; the spec's ROM holds none. -/
  | illegalWord (address : StepAddr) (word : Byte) (why : Illegal)
  /-- Raised by `SET` of line 5, 6 or 7 with `DIR = Out`: there is no output register, and a model must refuse it
  (`41_line_ops.md` R143(b), `93_implementation_defined.md` U7). Safe; the spec's ROM holds no such word. -/
  | noOutputRegister (line : Line)
  /-- Raised by the term `WAIT` with `tsel` 6 or 7, which no word decodes to (`30_encoding.md` R91). Safe. -/
  | reservedTimeConstant (tsel : BitVec 3)
  /-- Raised by every step when `MAX_BUSY_POLLS = 0`, which a model refuses (`10_state.md` R40,
  `93_implementation_defined.md` U8). Safe. -/
  | illegalConfiguration
  deriving DecidableEq, Repr

/-- The kinds that `err` can hold (`10_state.md` R35, `60_exceptions.md` R190). -/
inductive ErrKind where
  | none | timeout | misconfiguredLine | illegalCommand
  deriving DecidableEq, Repr

/-- The labels of Report events (`43_control_ops.md` R176). -/
inductive ReportLabel where
  | initial | postConversion | error
  deriving DecidableEq, Repr

/-- The events of the transcript (`00_scope.md` R14). -/
inductive Event where
  | cmd (c : CmdCode)
  | set (l : Line) (v : Bool)
  | wait (k : BitVec 3) (n : U32)
  | readBit (l : Line) (v : Bool)
  | readByte (l : Line) (v : Byte)
  | report (label : ReportLabel) (value : Half)
  deriving DecidableEq, Repr

/-- The output registers `out[0..4]` (`10_state.md` R44). -/
structure Outputs where
  reset : Bool
  convst : Bool
  companion : Bool
  chipSelect : Bool
  readStrobe : Bool
  deriving DecidableEq, Repr

/-- The levels on the input ports (`10_state.md` R46, R54). They belong to the Device and the Host; no
micro-op writes them. -/
structure Pins where
  hwreset : Bool
  cmdValid : Bool
  cmd : CmdCode
  busy : Bool
  dataLow : Byte
  dataHigh : Byte
  deriving DecidableEq, Repr

/-- The step ROM: the words that differ from the image of `30_encoding.md` R92, as (address, byte) pairs in
rising order (log 3). The spec's own ROM is the empty list. -/
abbrev Rom := List Host.Cell

/-- The whole machine. The first block is the spec's state tuple (`10_state.md` R20). -/
structure State where
  lowByte : Byte
  highByte : Byte
  sample : Half
  diagLow : Byte
  diagHigh : Byte
  upc : StepAddr
  sampleValid : Bool
  diagValid : Bool
  err : ErrKind
  errLine : LineId
  out : Outputs
  waitCnt : U32
  waiting : Bool
  pollCnt : U32
  aborting : Bool
  cmdLat : CmdCode
  /-- The configuration inputs (`00_scope.md` R9), constant for a run. -/
  cfg : Config
  /-- The step ROM (`30_encoding.md` R92), not writable by the machine (`20_memory.md` R72). -/
  rom : Rom
  /-- The input ports. -/
  pins : Pins
  /-- The Report port: the event emitted in the latest turn, if any (`43_control_ops.md` R176; log 12). -/
  report : Option (ReportLabel × Half)
  /-- The observer's record, oldest event first (`00_scope.md` R14; log 12). -/
  transcript : List Event
  /-- MODEL: the turns still to be taken, next one first (log 1). -/
  agenda : List Turn
  /-- MODEL: how many free turns have been taken (log 1). -/
  turnNo : Nat
  /-- MODEL: how many free values have been used (log 5, log 7). -/
  freeNo : Nat
  deriving DecidableEq, Repr

/-- The levels of `out[]` at hardware reset (`10_state.md` R55). -/
def Outputs.atReset : Outputs where
  reset := false
  convst := false
  companion := false
  chipSelect := true
  readStrobe := true

/-- The input ports right after reset: `hwreset_i` released; the other levels are the Host's and the Device's and
no rule gives them. DESIGN CHOICE (log 6), unsafe. -/
def Pins.atReset : Pins where
  hwreset := false
  cmdValid := false
  cmd := 0b00#2
  busy := false
  dataLow := 0#8
  dataHigh := 0#8

/-- The machine right after hardware reset under the configuration `c` (`10_state.md` R55, `70_reset_and_hazards.md`
R220). The five data registers are unspecified there; 0 is a DESIGN CHOICE (log 4), unsafe. -/
def State.resetWith (c : Config) : State where
  lowByte := 0#8
  highByte := 0#8
  sample := 0#16
  diagLow := 0#8
  diagHigh := 0#8
  upc := 0x00#6
  sampleValid := false
  diagValid := false
  err := .none
  errLine := 0#3
  out := .atReset
  waitCnt := 0#32
  waiting := false
  pollCnt := 0#32
  aborting := false
  cmdLat := 0b00#2
  cfg := c
  rom := []
  pins := .atReset
  report := none
  transcript := []
  agenda := []
  turnNo := 0
  freeNo := 0

/-- The machine right after hardware reset, in the standard configuration (log 2). -/
def State.reset : State := .resetWith .standard

end Sys2Proof.Machine
end

