-- ==== Sys2Proof/Machine/Rom.lean ====
section
/-! DEFINITION. The step ROM: the image of `30_encoding.md` R92, the canonical list that holds what differs from
it, reading and writing one word, and the fetch. The machine never writes it (`20_memory.md` R72); the write
is how a word is placed from outside (log 11). -/

namespace Sys2Proof.Machine

/-- The two quiescent addresses 0x00 and 0x01 (`30_encoding.md` R92). -/
def romQuiescent : List Byte := [0xC0, 0xC0]

/-- The reset routine, 0x02 to 0x0D (`30_encoding.md` R92, `40_host_commands.md` R111 to R115). -/
def romReset (c : Config) : List Byte :=
  [0x2D, 0x31, 0x24, 0x28] ++ [0x21, 0x40, 0x20, 0x40, 0x21, 0x40] ++
    [if c.diagReadback then 0x81 else 0x00, 0xE1]

/-- The acquisition routine, 0x0E to 0x1E (`30_encoding.md` R92, `40_host_commands.md` R120 to R131). -/
def romAcquisition (c : Config) : List Byte :=
  [0x28 + bitByte c.companionAssertLevel, 0x25, 0x41, 0x74, 0x52, 0x24, 0x28 + bitByte c.companionDeassertLevel] ++
    [0x2C, 0x43, 0x30, 0x44, 0x80, 0x31, 0x45, 0x2D, 0xA0, 0xE1]

/-- The abort routine, 0x1F to 0x24 (`30_encoding.md` R92, `60_exceptions.md` R198, R199). -/
def romAbort : List Byte := [0x31, 0x2D, 0x24, 0x28, 0x21, 0xE2]

/-- The 37 used words of the image, address 0x00 first (`30_encoding.md` R92). -/
def romImage (c : Config) : List Byte :=
  romQuiescent ++ romReset c ++ romAcquisition c ++ romAbort

/-- The filler word `RET 0` of addresses 0x25 to 0x3F (`30_encoding.md` R93). -/
def romFiller : Byte := 0xE0

/-- The word of the spec's ROM at an address. -/
def romWord (c : Config) (a : Nat) : Byte := (romImage c).getD a romFiller

/-- How many words the ROM has (`10_state.md` R28). -/
def romSize : Nat := 64

/-- The word listed for an address, if one is. -/
def Rom.listed : Rom → Nat → Option Byte
  | [], _ => none
  | (x, b) :: r, a => if x = a then some b else Rom.listed r a

/-- The word at an address: what is listed, else the spec's image (log 3). -/
def Rom.word (r : Rom) (c : Config) (a : Nat) : Byte := (r.listed a).getD (romWord c a)

/-- Reading the ROM; an address above 63 does not exist (`10_state.md` R28). -/
def Rom.read (r : Rom) (c : Config) (a : Nat) : Except Fault Byte :=
  if a < romSize then .ok (r.word c a) else .error (.noSuchRomAddress a)

/-- Placing a word, keeping the canonical form: a word equal to the image's is not listed. -/
def Rom.write (c : Config) (a : Nat) (b : Byte) : Rom → Rom
  | [] => if b = romWord c a then [] else [(a, b)]
  | (x, y) :: r =>
    if a < x then (if b = romWord c a then (x, y) :: r else (a, b) :: (x, y) :: r)
    else if a = x then (if b = romWord c a then r else (a, b) :: r)
    else (x, y) :: Rom.write c a b r

/-- The canonical form from the address `lo` on: addresses strictly rising and below 64, no entry equal to
the image's word. -/
def Rom.canonicalFrom (c : Config) (lo : Nat) : Rom → Bool
  | [] => true
  | (x, y) :: r =>
    decide (lo ≤ x) && decide (x < romSize) && decide (y ≠ romWord c x) && Rom.canonicalFrom c (x + 1) r

/-- The canonical form of the ROM's list. -/
def Rom.wf (c : Config) (r : Rom) : Bool := r.canonicalFrom c 0

/-- The ROM word at an address, as a step would read it. -/
def State.romByte (s : State) (a : Nat) : Except Fault Byte := s.rom.read s.cfg a

/-- The word at `upc`, the micro-op about to execute (`10_state.md` R26). -/
def State.fetch (s : State) : Except Fault Byte := s.romByte s.upc.toNat

end Sys2Proof.Machine
end

