-- ==== Sys2Proof/Machine/Operands.lean ====
section
/-! DEFINITION. Every operand form (`30_encoding.md` R90): the direction of a line, its output register, the time
constant that `tsel` selects, the level a single-bit read returns, the two buses. -/

namespace Sys2Proof.Machine

/-- `DIR[l]` (`10_state.md` R38). -/
def dirOf (c : Config) : Line → Direction
  | .reset => c.dir.reset
  | .convst => c.dir.convst
  | .companion => c.dir.companion
  | .chipSelect => c.dir.chipSelect
  | .readStrobe => c.dir.readStrobe
  | .busy => c.dir.busy
  | .dataLow => c.dir.dataLow
  | .dataHigh => c.dir.dataHigh

/-- `out[l]`; lines 5 to 7 have no output register (`10_state.md` R44). -/
def Outputs.level (o : Outputs) : Line → Option Bool
  | .reset => some o.reset
  | .convst => some o.convst
  | .companion => some o.companion
  | .chipSelect => some o.chipSelect
  | .readStrobe => some o.readStrobe
  | .busy | .dataLow | .dataHigh => none

/-- `out[l] <- v`, for the five lines that have an output register (`10_state.md` R44). -/
def Outputs.write (o : Outputs) (l : Line) (v : Bool) : Option Outputs :=
  match l with
  | .reset => some { o with reset := v }
  | .convst => some { o with convst := v }
  | .companion => some { o with companion := v }
  | .chipSelect => some { o with chipSelect := v }
  | .readStrobe => some { o with readStrobe := v }
  | .busy | .dataLow | .dataHigh => none

/-- `T[k]` for k 0 to 5 (`00_scope.md` R16, `10_state.md` R39); 6 and 7 are reserved. -/
def timeConstant (c : Config) : BitVec 3 → Option U32
  | 0#3 => some c.tReset
  | 1#3 => some c.tConvstSettle
  | 2#3 => some c.tBusyPoll
  | 3#3 => some c.tCsSettle
  | 4#3 => some c.tRdPulse
  | 5#3 => some c.tRdRelease
  | 6#3 => none
  | 7#3 => none

/-- A POLL can read the line: it is configured `In` (`41_line_ops.md` R146) and is no data bus (`20_memory.md` R61,
`41_line_ops.md` R147(f), `30_encoding.md` R91). DEDUCED for the buses, where R146's own check would let them pass
(log 19). -/
def pollable (c : Config) (l : Line) : Bool := dirOf c l = .input && !l.isBus

/-- The level that a single-bit read of a line returns. `pin[BUSY]` is an input port; for the lines 0 to 4 no rule
gives a level to read, so it is a FREE VALUE (log 7). No POLL reads a bus (`pollable`). -/
def State.levelOf (s : State) : Line → Bool
  | .busy => s.pins.busy
  | .reset | .convst | .companion | .chipSelect | .readStrobe | .dataLow | .dataHigh => Config.freeLevel s.freeNo

/-- How many free values a single-bit read of a line uses. -/
def freeLevelsUsed : Line → Nat
  | .busy => 0
  | .reset | .convst | .companion | .chipSelect | .readStrobe | .dataLow | .dataHigh => 1

/-- The bus that a capture reports as misconfigured, `DATA_LOW` tested first (`41_line_ops.md` R150). -/
def misconfiguredBus (c : Config) : Option Line :=
  if dirOf c .dataLow ≠ .input then some .dataLow
  else if dirOf c .dataHigh ≠ .input then some .dataHigh
  else none

end Sys2Proof.Machine
end

