-- ==== Sys2Proof/Machine/Flags.lean ====
section
/-! DEFINITION. The values that are functions of state, not registers: SequencerState and its code
(`10_state.md` R29 to R31), `cmd_ready` (R37), the error, label and report codes, and `held` (R50). -/

namespace Sys2Proof.Machine

/-- SequencerState (`10_state.md` R29). -/
inductive SeqState where
  | idle | resetting | awaitingConversion | reading | sampleReady | aborting
  deriving DecidableEq, Repr

/-- The code on `st_o` (`10_state.md` R30). -/
def SeqState.code : SeqState → BitVec 3
  | .idle => 0
  | .resetting => 1
  | .awaitingConversion => 2
  | .reading => 3
  | .sampleReady => 4
  | .aborting => 5

/-- `phase(a)`, the SequencerState while `upc = a` (`10_state.md` R31). -/
def phase (a : StepAddr) : SeqState :=
  let n := a.toNat
  if n = 0x00 then .idle
  else if n = 0x01 then .awaitingConversion
  else if n ≤ 0x0D then .resetting
  else if n ≤ 0x14 then .awaitingConversion
  else if n ≤ 0x1D then .reading
  else if n = 0x1E then .sampleReady
  else if n ≤ 0x24 then .aborting
  else .idle

/-- `st = phase(upc)` (`10_state.md` R31). -/
def State.seqState (s : State) : SeqState := phase s.upc

/-- `cmd_ready`: `upc` is 0x00 or 0x01 (`10_state.md` R37). -/
def State.cmdReady (s : State) : Bool := s.upc = 0x00#6 || s.upc = 0x01#6

/-- The sequencer is held: only a tick can lift the hold (`10_state.md` R50). -/
def State.held (s : State) : Bool := s.waiting && s.waitCnt ≠ 0#32

/-- The code of an error kind (`10_state.md` R35). -/
def ErrKind.code : ErrKind → BitVec 3
  | .none => 0
  | .timeout => 1
  | .misconfiguredLine => 2
  | .illegalCommand => 3

/-- The code on `report_label_o` (`43_control_ops.md` R176). -/
def ReportLabel.code : ReportLabel → BitVec 2
  | .initial => 0
  | .postConversion => 1
  | .error => 2

/-- The value of an ERROR report: `err` in bits 2:0, `err_line` in bits 10:8 (`43_control_ops.md` R176, R182). -/
def errorValue (e : ErrKind) (l : LineId) : Half :=
  (l.setWidth 16 <<< 8) ||| e.code.setWidth 16

/-! ## Sample arithmetic -/

/-- `combine(lo, hi)`: concatenation, or the unsigned product in the legacy mode (`43_control_ops.md` R173). -/
def combine (legacyMul : Bool) (lo hi : Byte) : Half :=
  if legacyMul then lo.setWidth 16 * hi.setWidth 16
  else (hi.setWidth 16 <<< 8) ||| lo.setWidth 16

/-- `decompose(s)`: low byte first; not computed by the hardware (`43_control_ops.md` R174). -/
def decompose (v : Half) : Byte × Byte := (v.extractLsb' 0 8, v.extractLsb' 8 8)

end Sys2Proof.Machine
end

