-- ==== Sys2Proof/Machine/Ops.lean ====
section
/-! DEFINITION. The operations that the meanings share: events and reports, moving `upc`, taking an error (the
raise) and the return from the abort routine, the line primitives of `00_scope.md` R17, the waits of
`42_timing_ops.md` R162, the consumption of a command, and what the outside agents do. -/

namespace Sys2Proof.Machine

/-! ## Events and the step index -/

/-- `emit e`: the transcript gains an event (`00_scope.md` R16). -/
def State.emit (e : Event) (s : State) : State := { s with transcript := s.transcript ++ [e] }

/-- `emit Report(label, value)`: the Report port shows it in this step (`43_control_ops.md` R176). -/
def State.emitReport (label : ReportLabel) (value : Half) (s : State) : State :=
  { s.emit (.report label value) with report := some (label, value) }

/-- `upc <- a`. -/
def State.goto (a : StepAddr) (s : State) : State := { s with upc := a }

/-- `upc <- upc + 1`, modulo 64 (`10_state.md` R27, R28). -/
def State.advance (s : State) : State := s.goto (s.upc + 1#6)

/-! ## Errors -/

/-- The abort entry (`30_encoding.md` R94). -/
def abortEntry : StepAddr := 0x1F#6

/-- TAKING AN ERROR: `raise E(l)` (`60_exceptions.md` R196). Nothing is saved; control goes to the abort routine. -/
def State.raise (e : ErrKind) (l : Line) (s : State) : State :=
  { s with
    err := e
    errLine := l.id
    aborting := true
    waiting := false
    waitCnt := 0#32
    upc := abortEntry }

/-- THE RETURN from the abort routine, `RET 2` (`43_control_ops.md` R182, `60_exceptions.md` R199). -/
def State.endAbort (s : State) : State :=
  { s.emitReport .error (errorValue s.err s.errLine) with
    aborting := false
    upc := if s.cmdLat = 0b01#2 then 0x00#6 else 0x01#6 }

/-! ## Lines -/

/-- The body of `LineSet` for a line with `DIR = Out` (`00_scope.md` R17, `41_line_ops.md` R141); none where the
line has no output register (R143(b)). -/
def State.driveLine (l : Line) (v : Bool) (s : State) : Option State :=
  (s.out.write l v).map fun o => { s.emit (.set l v) with out := o }

/-- The body of `LineRead` for a line with `DIR = In`: the event is recorded, nothing else changes
(`00_scope.md` R17, `20_memory.md` R65). -/
def State.recordRead (l : Line) (s : State) : State :=
  { s.emit (.readBit l (s.levelOf l)) with freeNo := s.freeNo + freeLevelsUsed l }

/-- `poll_cnt <- poll_cnt + 1` (`41_line_ops.md` R146). -/
def State.countPoll (s : State) : State := { s with pollCnt := s.pollCnt + 1#32 }

/-- Both `BusRead`s of a capture, at one instant, `DATA_LOW` recorded first (`20_memory.md` R64, `41_line_ops.md` R150). -/
def State.recordBuses (s : State) : State :=
  (s.emit (.readByte .dataLow s.pins.dataLow)).emit (.readByte .dataHigh s.pins.dataHigh)

/-! ## Waits -/

/-- Where `upc` goes after a wait (`42_timing_ops.md` R162). -/
def State.afterWait (b : Bool) (s : State) : StepAddr := if b then s.upc - 1#6 else s.upc + 1#6

/-- The `begin` step of a wait of `n` units (`42_timing_ops.md` R162, R163). -/
def State.beginWait (tsel : BitVec 3) (n : U32) (b : Bool) (s : State) : State :=
  if n = 0#32 then (s.emit (.wait tsel n)).goto (s.afterWait b)
  else { s.emit (.wait tsel n) with waitCnt := n, waiting := true }

/-- The `end` step of a wait (`42_timing_ops.md` R162). -/
def State.endWait (b : Bool) (s : State) : State :=
  { s with waiting := false, upc := s.afterWait b }

/-! ## Commands -/

/-- A command code has been consumed: it is latched and recorded (`43_control_ops.md` R177). -/
def State.latchCommand (c : CmdCode) (s : State) : State :=
  { s.emit (.cmd c) with cmdLat := c }

/-- Accepting `CMD_RESET` (`43_control_ops.md` R178). -/
def State.acceptReset (s : State) : State :=
  { s with err := .none, errLine := 0#3, sampleValid := false, diagValid := false, upc := 0x02#6 }

/-- Accepting `CMD_TRIGGER_AND_READ` (`43_control_ops.md` R178). -/
def State.acceptTrigger (s : State) : State :=
  { s with err := .none, errLine := 0#3, sampleValid := false, pollCnt := 0#32, upc := 0x0E#6 }

/-- Refusing a command: no raise, `upc` stays (`43_control_ops.md` R179). -/
def State.refuseCommand (s : State) : State :=
  { s with err := .illegalCommand, errLine := 0#3 }.emitReport .error (errorValue .illegalCommand 0#3)

/-- Consuming the command `c` at the quiescent address `upc` (`43_control_ops.md` R177). -/
def State.consumeCommand (c : CmdCode) (s : State) : State :=
  if c = 0b01#2 then (s.latchCommand c).acceptReset
  else if c = 0b10#2 && s.upc = 0x01#6 then (s.latchCommand c).acceptTrigger
  else (s.latchCommand c).refuseCommand

/-- A command presented in a Sequencer step: consumed exactly when `cmd_ready = 1`, else without trace
(`10_state.md` R54, `40_host_commands.md` R134; log 9). -/
def State.presentCommand (c : CmdCode) (s : State) : State :=
  if s.cmdReady then s.consumeCommand c else s

/-! ## The outside agents -/

/-- One tick (`42_timing_ops.md` R161). -/
def State.tick (s : State) : State :=
  if s.held then { s with waitCnt := s.waitCnt - 1#32 } else s

/-- `HWRESET`: the state tuple takes the values of `10_state.md` R55, whatever was in progress; no event
(`60_exceptions.md` R203). The five data registers are unspecified: FREE VALUES (log 5). -/
def State.hwReset (s : State) : State :=
  { s with
    lowByte := Config.freeByte s.freeNo
    highByte := Config.freeByte (s.freeNo + 1)
    diagLow := Config.freeByte (s.freeNo + 2)
    diagHigh := Config.freeByte (s.freeNo + 3)
    sample := Config.freeHalf s.freeNo
    freeNo := s.freeNo + 4
    upc := 0x00#6
    sampleValid := false
    diagValid := false
    err := .none
    errLine := 0#3
    out := .atReset
    waitCnt := 0#32
    waiting := false
    pollCnt := 0#32
    aborting := false
    cmdLat := 0b00#2 }

/-- While `hwreset_i = 1` the state is held at its reset values (`10_state.md` R55; log 16). -/
def State.underReset (s : State) : State := if s.pins.hwreset then s.hwReset else s

/-- What a turn of an outside agent does (`00_scope.md` R12). While `hwreset_i = 1`, and in the turn that releases
it, the state is at its reset values. -/
def State.outsideTurn (t : Turn) (s : State) : State :=
  match t with
  | .sequencer => s
  | .tick => if s.pins.hwreset then s.hwReset else s.tick
  | .device b lo hi => { s with pins := { s.pins with busy := b, dataLow := lo, dataHigh := hi } }.underReset
  | .host valid c => { s with pins := { s.pins with cmdValid := valid, cmd := c } }.underReset
  | .hwreset level =>
    if s.pins.hwreset then { s with pins := { s.pins with hwreset := level } }.hwReset
    else { s with pins := { s.pins with hwreset := level } }.underReset

/-- Whose turn is next: the agenda's first, or a FREE VALUE when the agenda is used up (log 1). -/
def State.nextTurn (s : State) : Turn := s.agenda.headD (Config.freeTurn s.turnNo)

/-- The turn is taken from the agenda, and `report_valid_o` falls back to 0 (`43_control_ops.md` R176; log 12). -/
def State.beginTurn (s : State) : State :=
  match s.agenda with
  | [] => { s with report := none, turnNo := s.turnNo + 1 }
  | _ :: rest => { s with report := none, agenda := rest }

end Sys2Proof.Machine
end

