-- ==== Sys2Proof/Machine/ControlOps.lean ====
section
/-! DEFINITION. The control micro-operations `NOP`, `SAMPLE`, `WCMD`, `RET 0`, `RET 1`, `RET 2`
(`43_control_ops.md`). -/

namespace Sys2Proof.Machine

/-- `NOP` (`43_control_ops.md` R170). -/
def execNop (s : State) : Host.Outcome State Fault Refusal := .next s.advance

/-- `SAMPLE` (`43_control_ops.md` R172). -/
def execSample (s : State) : Host.Outcome State Fault Refusal :=
  let v := combine s.cfg.combineLegacyMul s.lowByte s.highByte
  .next ({ s with sample := v, sampleValid := true }.emitReport .postConversion v).advance

/-- `WCMD` (`43_control_ops.md` R177): rests while no command is presented, else consumes it. -/
def execWcmd (s : State) : Host.Outcome State Fault Refusal :=
  .next (if s.pins.cmdValid then s.presentCommand s.pins.cmd else s)

/-- `RET 0` and `RET 1` (`43_control_ops.md` R181). -/
def execRet (m : BitVec 1) (s : State) : Host.Outcome State Fault Refusal :=
  .next (s.goto (m.setWidth 6))

/-- `RET 2`, the end of the abort routine (`43_control_ops.md` R182). -/
def execRet2 (s : State) : Host.Outcome State Fault Refusal := .next s.endAbort

end Sys2Proof.Machine
end

