-- ==== Sys2Proof/Machine/HostCommands.lean ====
section
/-! DEFINITION. The host commands (`40_host_commands.md`). The meaning of a command is the Sequencer step in which
it is presented: consumed if `cmd_ready = 1`, else without effect (R110, R134). What follows an acceptance is the
routine in the step ROM, run micro-op by micro-op (log 10). -/

namespace Sys2Proof.Machine

/-- `CMD_RESET`, code `0b01` (`40_host_commands.md` R111). -/
def execCmdReset (s : State) : Host.Outcome State Fault Refusal := .next (s.presentCommand 0b01#2)

/-- `CMD_TRIGGER_AND_READ`, code `0b10` (`40_host_commands.md` R120, R121). -/
def execCmdTriggerAndRead (s : State) : Host.Outcome State Fault Refusal := .next (s.presentCommand 0b10#2)

end Sys2Proof.Machine
end

