-- ==== Sys2Proof/Machine/LineOps.lean ====
section
/-! DEFINITION. The line micro-operations `SET`, `POLL`, `CAPTURE 0`, `CAPTURE 1` (`41_line_ops.md`). -/

namespace Sys2Proof.Machine

/-- `SET line,v` (`41_line_ops.md` R141 to R143): the direction is checked first; a line that cannot be driven is
an error, but is skipped in the abort routine. -/
def execSet (line : Line) (v : Bool) (s : State) : Host.Outcome State Fault Refusal :=
  match dirOf s.cfg line with
  | .input => .next (if s.aborting then s.advance else s.raise .misconfiguredLine line)
  | .output =>
    match s.driveLine line v with
    | some s' => .next s'.advance
    | none => .refused (.noOutputRegister line)

/-- `POLL line,v` (`41_line_ops.md` R146): direction, then the read, then the exit test, then the bound test. A data bus
is never polled: it raises as a wrong direction does (`30_encoding.md` R91, `20_memory.md` R61, `41_line_ops.md`
R147(f); log 19). -/
def execPoll (line : Line) (v : Bool) (s : State) : Host.Outcome State Fault Refusal :=
  if pollable s.cfg line then
    let read := (s.recordRead line).countPoll
    .next <|
      if s.levelOf line = v then read.goto (read.upc + 2#6)
      else if read.pollCnt = read.cfg.maxBusyPolls then read.raise .timeout line
      else read.advance
  else .next (s.raise .misconfiguredLine line)

/-- `CAPTURE 0` (`41_line_ops.md` R150): the Sample capture. -/
def execCapture0 (s : State) : Host.Outcome State Fault Refusal :=
  match misconfiguredBus s.cfg with
  | some l => .next (s.raise .misconfiguredLine l)
  | none => .next { s.recordBuses with lowByte := s.pins.dataLow, highByte := s.pins.dataHigh }.advance

/-- `CAPTURE 1` (`41_line_ops.md` R151): the diagnostic capture. -/
def execCapture1 (s : State) : Host.Outcome State Fault Refusal :=
  match misconfiguredBus s.cfg with
  | some l => .next (s.raise .misconfiguredLine l)
  | none =>
    let read := { s.recordBuses with diagLow := s.pins.dataLow, diagHigh := s.pins.dataHigh, diagValid := true }
    .next (read.emitReport .initial (combine s.cfg.combineLegacyMul s.pins.dataLow s.pins.dataHigh)).advance

end Sys2Proof.Machine
end

