-- ==== Sys2Proof/Machine/TimingOps.lean ====
section
/-! DEFINITION. The timing micro-operation `WAIT` (`42_timing_ops.md`). -/

namespace Sys2Proof.Machine

/-- `WAIT tsel,b` (`42_timing_ops.md` R162 to R164): the begin step, the held wait (nothing happens; log 13) and the
end step. The reserved `tsel` values have no time constant (`30_encoding.md` R91). -/
def execWait (tsel : BitVec 3) (b : Bool) (s : State) : Host.Outcome State Fault Refusal :=
  match timeConstant s.cfg tsel with
  | none => .refused (.reservedTimeConstant tsel)
  | some n =>
    .next <|
      if s.waiting then (if s.waitCnt = 0#32 then s.endWait b else s)
      else s.beginWait tsel n b

end Sys2Proof.Machine
end

