-- ==== Sys2Proof/Machine/Dispatch.lean ====
section
/-! DEFINITION. One arm per instruction: its meaning. -/

namespace Sys2Proof.Machine

def exec (i : Instr) (s : State) : Host.Outcome State Fault Refusal :=
  match i with
  | .nop => Sys2Proof.Machine.execNop s
  | .set line v => Sys2Proof.Machine.execSet line v s
  | .wait tsel b => Sys2Proof.Machine.execWait tsel b s
  | .poll line v => Sys2Proof.Machine.execPoll line v s
  | .capture0 => Sys2Proof.Machine.execCapture0 s
  | .capture1 => Sys2Proof.Machine.execCapture1 s
  | .sample => Sys2Proof.Machine.execSample s
  | .wcmd => Sys2Proof.Machine.execWcmd s
  | .ret m => Sys2Proof.Machine.execRet m s
  | .ret2 => Sys2Proof.Machine.execRet2 s
  | .cmdReset => Sys2Proof.Machine.execCmdReset s
  | .cmdTriggerAndRead => Sys2Proof.Machine.execCmdTriggerAndRead s

end Sys2Proof.Machine
end

