-- ==== Sys2Proof/Machine/Sequencer.lean ====
section
/-! DEFINITION. The turns: fetching, decoding and executing the micro-op at `upc`, and one turn of the agent whose
turn it is (`00_scope.md` R12); and how an instruction is placed to be run next (log 11). -/

namespace Sys2Proof.Machine

/-- A Sequencer turn that is not held: the word at `upc` is fetched, decoded and executed (`10_state.md` R26); an
illegal word is refused (`30_encoding.md` R91). -/
def runFetched (s : State) : Host.Outcome State Fault Refusal :=
  match s.fetch with
  | .error f => .fault f
  | .ok w =>
    match decode w with
    | .ok i => exec i s
    | .error why => .refused (.illegalWord s.upc w why)

/-- The Sequencer's turn: nothing moves while `hwreset_i = 1` (`10_state.md` R55) or while it is held (R50; log 13). -/
def sequencerTurn (s : State) : Host.Outcome State Fault Refusal :=
  if s.pins.hwreset then .next s.hwReset
  else if s.held then .next s
  else runFetched s

/-- One turn of the agent whose turn it is; a configuration with `MAX_BUSY_POLLS = 0` is refused
(`10_state.md` R40). -/
def takeTurn (s : State) : Host.Outcome State Fault Refusal :=
  if s.cfg.maxBusyPolls = 0#32 then .refused .illegalConfiguration
  else
    match s.nextTurn with
    | .sequencer => sequencerTurn s.beginTurn
    | t => .next (s.beginTurn.outsideTurn t)

/-- The next turn is the Sequencer's, unheld, with `hwreset_i` released (log 11). -/
def State.sequencerNext (s : State) : State :=
  { s with
    waiting := s.waiting && !s.held
    pins := { s.pins with hwreset := false }
    agenda := .sequencer :: s.agenda }

/-- The word `b` stands in the ROM at `upc`. -/
def State.placeMicroWord (b : Byte) (s : State) : State :=
  { s with rom := s.rom.write s.cfg s.upc.toNat b }

/-- The command `c` is presented with `upc` at a quiescent address that holds `WCMD`: where it is, if it is
quiescent, else 0x01. -/
def State.placeCommand (c : CmdCode) (s : State) : State :=
  { s with
    upc := if s.cmdReady then s.upc else 0x01#6
    pins := { s.pins with cmdValid := true, cmd := c } }.placeMicroWord 0xC0

/-- The state in which the very next step is the Sequencer's and runs the given code (log 11). -/
def State.placeCode (s : State) : Code → State
  | .microWord b => s.sequencerNext.placeMicroWord b
  | .command c => s.sequencerNext.placeCommand c

end Sys2Proof.Machine
end

