-- ==== Sys2Proof/Machine/Step.lean ====
section
/-! DEFINITION. One step of the machine, and the placing of the instruction that the next step runs. -/

namespace Sys2Proof.Machine

/-- One step: one turn of one agent (`00_scope.md` R12). -/
def step (s : State) : Host.Outcome State Fault Refusal := takeTurn s

/-- The state in which the very next step is the Sequencer's and runs the instruction that the opcode table
numbers `w` (log 10, log 11). -/
def State.withFetchWord (s : State) (nbits w : Nat) : State := s.placeCode (tableCode nbits w)

end Sys2Proof.Machine
end

