-- ==== Sys2Proof/Machine/Ports.lean ====
section
/-! DEFINITION. The output ports as the Host sees them (`10_state.md` R42, R47, R54, R214). Looking at a port has no
effect on the state. A look at a data port carries a number that the Host gives it, so that looks while the valid flag
is 0 are independent free values (`93_implementation_defined.md` U3; log 14). -/

namespace Sys2Proof.Machine

/-- `st_o` (`10_state.md` R30). -/
def State.stO (s : State) : BitVec 3 := s.seqState.code

/-- `upc_o` (`10_state.md` R26). -/
def State.upcO (s : State) : StepAddr := s.upc

/-- `cmd_ready_o` (`10_state.md` R37). -/
def State.cmdReadyO (s : State) : Bool := s.cmdReady

/-- `err_o` (`10_state.md` R35). -/
def State.errO (s : State) : BitVec 3 := s.err.code

/-- `err_line_o` (`10_state.md` R36). -/
def State.errLineO (s : State) : LineId := s.errLine

/-- `sample_valid_o` (`10_state.md` R33). -/
def State.sampleValidO (s : State) : Bool := s.sampleValid

/-- `sample_o`; unspecified while `sample_valid = 0` (`10_state.md` R23; log 14). -/
def State.sampleO (s : State) (look : Nat) : Half :=
  if s.sampleValid then s.sample else Config.freeHalfRead look

/-- `low_byte_o`; unspecified while `sample_valid = 0` (`10_state.md` R23; log 14). -/
def State.lowByteO (s : State) (look : Nat) : Byte :=
  if s.sampleValid then s.lowByte else Config.freeByteRead .lowByte look

/-- `high_byte_o`; unspecified while `sample_valid = 0` (`10_state.md` R23; log 14). -/
def State.highByteO (s : State) (look : Nat) : Byte :=
  if s.sampleValid then s.highByte else Config.freeByteRead .highByte look

/-- `diag_valid_o` (`10_state.md` R34). -/
def State.diagValidO (s : State) : Bool := s.diagValid

/-- `diag_low_o`; meaningful only while `diag_valid = 1` (`10_state.md` R24; log 14). -/
def State.diagLowO (s : State) (look : Nat) : Byte :=
  if s.diagValid then s.diagLow else Config.freeByteRead .diagLow look

/-- `diag_high_o`; meaningful only while `diag_valid = 1` (`10_state.md` R24; log 14). -/
def State.diagHighO (s : State) (look : Nat) : Byte :=
  if s.diagValid then s.diagHigh else Config.freeByteRead .diagHigh look

/-- `reset_o`, `convst_o`, `companion_o`, `cs_o`, `rd_o`: the output registers (`10_state.md` R54). -/
def State.lineO (s : State) (l : Line) : Option Bool := s.out.level l

/-- The level the block drives onto a line's pin: none where it does not drive it (`10_state.md` R47). -/
def State.drivenLevel (s : State) (l : Line) : Option Bool :=
  match dirOf s.cfg l with
  | .output => s.out.level l
  | .input => none

/-- `report_valid_o` (`43_control_ops.md` R176). -/
def State.reportValidO (s : State) : Bool := s.report.isSome

/-- `report_label_o`, with its value, in a step that reports (`43_control_ops.md` R176). DESIGN CHOICE: in every other step,
`report_valid_o = 0`, no rule says what the port shows, and the model gives it no value (`none`; log 20). -/
def State.reportLabelO (s : State) : Option (BitVec 2) := s.report.map fun r => r.1.code

/-- `report_value_o`, in a step that reports (`43_control_ops.md` R176). DESIGN CHOICE: in every other step,
`report_valid_o = 0`, no rule says what the port shows, and the model gives it no value (`none`; log 20). -/
def State.reportValueO (s : State) : Option Half := s.report.map (·.2)

end Sys2Proof.Machine
end

