-- ==== Sys2Proof/Safety.lean ====
section
/-! DEFINITION. What counts as a safe state and a safe run, in the terms the statements use: the protocol invariant
(`10_state.md` R56, `70_reset_and_hazards.md` R230, R231), the reachable states, the transitions of SequencerState
(R32), the inputs an instruction samples, the turns that carry a routine to its end, fairness (`70_reset_and_hazards.md`
R236), and the run of one command under any schedule. -/

namespace Sys2Proof.Machine

/-! ## States after reset and reachable states -/

/-- `s` is a state right after hardware reset with the spec's ROM (`10_state.md` R55): the five data registers, the
input ports and the schedule are any. -/
structure State.AfterReset (s : State) : Prop where
  upc : s.upc = 0x00
  sampleValid : s.sampleValid = false
  diagValid : s.diagValid = false
  err : s.err = .none
  errLine : s.errLine = 0
  out : s.out = { reset := false, convst := false, companion := false, chipSelect := true, readStrobe := true }
  waitCnt : s.waitCnt = 0
  waiting : s.waiting = false
  pollCnt : s.pollCnt = 0
  aborting : s.aborting = false
  cmdLat : s.cmdLat = 0b00
  rom : s.rom = []

/-- The states that some run reaches from a reset with a legal configuration, whatever the agents do. -/
inductive Reachable : State → Prop where
  | reset {s : State} (legal : s.cfg.Legal) (after : s.AfterReset) : Reachable s
  | step {s t : State} (before : Reachable s) (h : step s = .next t) : Reachable t

/-! ## The protocol invariant -/

/-- The micro-op that the spec's ROM holds at an address (`30_encoding.md` R92). -/
def romOp (c : Config) (a : StepAddr) : Except Illegal Instr := decode (romWord c a.toNat)

/-- `lo <= upc <= hi`. -/
abbrev State.within (s : State) (lo hi : Nat) : Prop := lo ≤ s.upc.toNat ∧ s.upc.toNat ≤ hi

/-- The invariant of the sequencer with the spec's ROM: the clauses of `10_state.md` R56 and of
`70_reset_and_hazards.md` R230, with what carries them from step to step. -/
structure State.Inv (s : State) : Prop where
  specRom : s.rom = []
  legal : s.cfg.Legal
  upcUsed : s.upc.toNat ≤ 0x24
  waitingAtWait : s.waiting = true → ∃ tsel b, romOp s.cfg s.upc = .ok (.wait tsel b)
  notWaiting : s.waiting = false → s.waitCnt = 0
  abortingIff : s.aborting = true ↔ s.within 0x1F 0x24
  pollBound : s.pollCnt.toNat ≤ s.cfg.maxBusyPolls.toNat
  pollRoom : s.within 0x0E 0x12 → s.pollCnt.toNat < s.cfg.maxBusyPolls.toNat
  abortError : s.aborting = true → s.err ≠ .none
  sampleMeaningful : s.sampleValid = true → s.upc = 0x1E ∨ s.upc = 0x01
  resetLatched : s.within 0x02 0x0D → s.cmdLat = 0b01
  triggerLatched : s.within 0x0E 0x1E → s.cmdLat = 0b10
  readWindow : s.out.readStrobe = false → s.out.chipSelect = false
  selectLow : s.within 0x16 0x1C → s.out.chipSelect = false
  strobeLow : s.within 0x18 0x1A → s.out.readStrobe = false
  strobeLowOnly : s.out.readStrobe = false → s.within 0x18 0x1A ∨ s.upc = 0x1F
  strobeDriven : s.out.readStrobe = false → dirOf s.cfg .readStrobe = .output

/-! ## Transitions of SequencerState -/

/-- The transitions of `st` that `10_state.md` R32 allows. -/
def SeqState.allowed : SeqState → SeqState → Bool
  | .idle, .resetting => true
  | .awaitingConversion, .resetting => true
  | .resetting, .awaitingConversion => true
  | .awaitingConversion, .reading => true
  | .reading, .sampleReady => true
  | .sampleReady, .awaitingConversion => true
  | .resetting, .aborting => true
  | .awaitingConversion, .aborting => true
  | .reading, .aborting => true
  | .aborting, .idle => true
  | .aborting, .awaitingConversion => true
  | _, _ => false

/-- The next turn neither finds `hwreset_i` at 1 nor drives it to 1. -/
def State.noHwReset (s : State) : Prop := s.pins.hwreset = false ∧ s.nextTurn ≠ .hwreset true

/-! ## What an instruction samples -/

/-- Two settings of the input ports agree on what an instruction samples (`60_exceptions.md` R203,
`43_control_ops.md` R177, R180(a)). -/
def sampledAlike (i : Instr) (p q : Pins) : Prop :=
  match i with
  | .poll _ _ => p.busy = q.busy
  | .capture0 | .capture1 => p.dataLow = q.dataLow ∧ p.dataHigh = q.dataHigh
  | .wcmd => p.cmdValid = q.cmdValid ∧ (p.cmdValid = true → p.cmd = q.cmd)
  | .nop | .set _ _ | .wait _ _ | .sample | .ret _ | .ret2 | .cmdReset | .cmdTriggerAndRead => True

/-- The outcome with other levels on the input ports. -/
def outcomeWithPins (p : Pins) :
    Host.Outcome State Fault Refusal → Host.Outcome State Fault Refusal
  | .next t => .next { t with pins := p }
  | .fault f => .fault f
  | .refused r => .refused r

/-- The Report of an event, if it is one. -/
def Event.asReport : Event → Option (ReportLabel × Half)
  | .report k v => some (k, v)
  | _ => none

/-! ## Turns that carry a routine to its end -/

/-- The turns of a wait of `n` units with no turn more than needed: begin, `n` ticks, end
(`42_timing_ops.md` R162, R163). -/
def waitTurns (n : U32) : List Turn :=
  if n = 0#32 then [.sequencer] else .sequencer :: (List.replicate n.toNat .tick ++ [.sequencer])

/-- The turns of the reset routine after its acceptance (`70_reset_and_hazards.md` R240): 7 SETs, 3 waits, the
diagnostic read-back or NOP, RET. -/
def resetTurns (c : Config) : List Turn :=
  List.replicate 5 .sequencer ++ waitTurns c.tReset ++ [.sequencer] ++ waitTurns c.tReset ++ [.sequencer] ++
    waitTurns c.tReset ++ [.sequencer, .sequencer]

/-- The events of one successful reset after `Cmd(1)` (`40_host_commands.md` R135), with the bytes `lo` and `hi` at
the diagnostic read-back. -/
def resetEvents (c : Config) (lo hi : Byte) : List Event :=
  [.set .chipSelect true, .set .readStrobe true, .set .convst false, .set .companion false, .set .reset true,
    .wait 0 c.tReset, .set .reset false, .wait 0 c.tReset, .set .reset true, .wait 0 c.tReset] ++
  if c.diagReadback then
    [.readByte .dataLow lo, .readByte .dataHigh hi, .report .initial (combine c.combineLegacyMul lo hi)]
  else []

/-- The turns of the poll loop while the Device answers busy `k` times (`40_host_commands.md` R124). -/
def busyTurns (c : Config) : Nat → List Turn
  | 0 => []
  | k + 1 => .sequencer :: (waitTurns c.tBusyPoll ++ busyTurns c k)

/-- The turns of a successful acquisition after its acceptance: the Device shows busy, `k` polls find it so, then it
shows done and puts `lo`, `hi` on the buses (`70_reset_and_hazards.md` R240). -/
def acquisitionTurns (c : Config) (k : Nat) (lo hi : Byte) : List Turn :=
  [.device true 0 0, .sequencer, .sequencer] ++ waitTurns c.tConvstSettle ++ busyTurns c k ++
    [.device false lo hi, .sequencer, .sequencer, .sequencer, .sequencer] ++ waitTurns c.tCsSettle ++
    [.sequencer] ++ waitTurns c.tRdPulse ++ [.sequencer, .sequencer] ++ waitTurns c.tRdRelease ++
    [.sequencer, .sequencer, .sequencer]

/-- The events of `k` busy answers, each followed by its wait (`40_host_commands.md` R135). -/
def busyEvents (c : Config) : Nat → List Event
  | 0 => []
  | k + 1 => [.readBit .busy true, .wait 2 c.tBusyPoll] ++ busyEvents c k

/-- The events of one successful acquisition after `Cmd(2)` (`40_host_commands.md` R135). -/
def acquisitionEvents (c : Config) (k : Nat) (lo hi : Byte) : List Event :=
  [.set .companion c.companionAssertLevel, .set .convst true, .wait 1 c.tConvstSettle] ++ busyEvents c k ++
    [.readBit .busy false, .set .convst false, .set .companion c.companionDeassertLevel,
      .set .chipSelect false, .wait 3 c.tCsSettle, .set .readStrobe false, .wait 4 c.tRdPulse,
      .readByte .dataLow lo, .readByte .dataHigh hi, .set .readStrobe true, .wait 5 c.tRdRelease,
      .set .chipSelect true, .report .postConversion (combine c.combineLegacyMul lo hi)]

/-- The turns of an acquisition whose device never shows done, after its acceptance: `k + 1` polls, the last of which
times out, then the abort routine (`70_reset_and_hazards.md` R240). -/
def timeoutTurns (c : Config) (k : Nat) : List Turn :=
  [.device true 0 0, .sequencer, .sequencer] ++ waitTurns c.tConvstSettle ++ busyTurns c k ++
    [.sequencer] ++ List.replicate 6 .sequencer

/-- The events of the abort routine for the lines that are configured `Out` (`60_exceptions.md` R198). -/
def abortEvents (c : Config) : List Event :=
  ([(.readStrobe, true), (.chipSelect, true), (.convst, false), (.companion, false), (.reset, true)].filter
    fun p : Line × Bool => dirOf c p.1 = .output).map fun p => .set p.1 p.2

/-- The events of an acquisition whose device never shows done, after `Cmd(2)`, with the nominal directions: `k + 1`
polls, then the abort routine (`41_line_ops.md` R147(b), `60_exceptions.md` R198). -/
def timeoutEvents (c : Config) (k : Nat) : List Event :=
  [.set .companion c.companionAssertLevel, .set .convst true, .wait 1 c.tConvstSettle] ++ busyEvents c k ++
    [.readBit .busy true, .set .readStrobe true, .set .chipSelect true, .set .convst false, .set .companion false,
      .set .reset true, .report .error 0x0501]

/-- The output registers after the abort routine: a line that is not configured `Out` keeps its level
(`60_exceptions.md` R198). -/
def idleOutputs (c : Config) (o : Outputs) : Outputs where
  reset := if dirOf c .reset = .output then true else o.reset
  convst := if dirOf c .convst = .output then false else o.convst
  companion := if dirOf c .companion = .output then false else o.companion
  chipSelect := if dirOf c .chipSelect = .output then true else o.chipSelect
  readStrobe := if dirOf c .readStrobe = .output then true else o.readStrobe

/-- How many of the turns are ticks. -/
def ticksIn (ts : List Turn) : Nat := ts.count .tick

/-! ## Fairness -/

/-- The outcome of the first `n` turns of an endless schedule. -/
def State.follow (s : State) (f : Nat → Turn) (n : Nat) : Host.Outcome State Fault Refusal :=
  Host.Core.run core n { s with agenda := (List.range n).map f }

/-- The schedule never applies HWRESET. -/
def neverHwReset (f : Nat → Turn) : Prop := ∀ n, f n ≠ .hwreset true

/-- The two fairness premises of `70_reset_and_hazards.md` R236. They are premises of statements and no part of the
step (log 1). -/
structure Fair (s : State) (f : Nat → Turn) : Prop where
  /-- F1: while `waiting = 1` and `wait_cnt > 0`, a tick eventually occurs. -/
  timebase : ∀ n t, s.follow f n = .next t → t.held = true → ∃ m, n ≤ m ∧ f m = .tick
  /-- F2: an enabled step of the Sequencer eventually executes; it is enabled where it is not held. -/
  sequencer : ∀ n t, s.follow f n = .next t → t.held = false → ∃ m, n ≤ m ∧ f m = .sequencer

/-! ## The run of one command -/

/-- The turns `ts` carry `s`, in which a command is in progress, to `t`, the first state at which `upc` is quiescent
again: the end of the command (`43_control_ops.md` R184). The turns are any, but for HWRESET. -/
structure CommandRun (s : State) (ts : List Turn) (t : State) : Prop where
  agenda : ∃ rest, s.agenda = ts ++ rest
  released : s.pins.hwreset = false
  noHwReset : .hwreset true ∉ ts
  runs : Host.Core.run core ts.length s = .next t
  ready : t.cmdReady = true
  first : ∀ n u, n < ts.length → Host.Core.run core n s = .next u → u.cmdReady = false

/-- Among the turns `ts` from `s`, the Sequencer's turn at the address `a` finds `lo` and `hi` on the data buses. -/
def State.seesOnBuses (s : State) (ts : List Turn) (a : StepAddr) (lo hi : Byte) : Prop :=
  ∃ n u, n < ts.length ∧ Host.Core.run core n s = .next u ∧ u.nextTurn = .sequencer ∧ u.upc = a ∧
    u.pins.dataLow = lo ∧ u.pins.dataHigh = hi

end Sys2Proof.Machine
end

