-- ==== Sys2Proof/Certificates/Slice0/Obligations.lean ====
section
/-! DEFINITION. The statements for the provers. Where a statement rests on a choice of the model, its docstring says so
and names the log entry. -/

open Sys2Proof Sys2Proof.Machine

/-! ## Encodings and the step ROM -/

/-- `30_encoding.md` R98: decoding the encoding of a well-formed instruction gives it back, with every operand. -/
def Obligations.DecodeOfEncodeIsIdentity : Prop :=
  ∀ i : Instr, i.wellFormed = true → decodeCode (encode i) = .ok i

/-- `30_encoding.md` R98: a word that decodes is the encoding of what it decodes to, which is well formed. -/
def Obligations.EncodeOfDecodeIsIdentity : Prop :=
  ∀ (w : Code) (i : Instr), decodeCode w = .ok i → i.wellFormed = true ∧ encode i = w

/-- `30_encoding.md` R91: the illegal micro-words are exactly those with a must-be-zero bit set, a reserved `tsel` or a
reserved `m`; 204 of 256. -/
def Obligations.IllegalWordsAreTheReservedOnes : Prop :=
  (∀ w : Byte,
    ((∃ e, decode w = .error e) ↔
      ((w.extractLsb' 5 3 = 0 ∨ w.extractLsb' 5 3 = 5 ∨ w.extractLsb' 5 3 = 6) ∧ w.extractLsb' 0 5 ≠ 0) ∨
      ((w.extractLsb' 5 3 = 1 ∨ w.extractLsb' 5 3 = 3) ∧ w.getLsbD 1 = true) ∨
      (w.extractLsb' 5 3 = 2 ∧ (w.getLsbD 3 = true ∨ 6 ≤ (w.extractLsb' 0 3).toNat)) ∨
      (w.extractLsb' 5 3 = 4 ∧ w.extractLsb' 1 4 ≠ 0) ∨
      (w.extractLsb' 5 3 = 7 ∧ (w.extractLsb' 2 3 ≠ 0 ∨ w.extractLsb' 0 2 = 3)))) ∧
  ((List.range 256).countP fun n => !(decode (BitVec.ofNat 8 n)).toBool) = 204

/-- `30_encoding.md` R84 to R89, `95_test_vectors.md` V-E1, V-E3: one written-out word of every row decodes to its
micro-op. -/
def Obligations.WrittenOutWordsDecode : Prop :=
  decode 0b00000000 = .ok .nop ∧
  decode 0b00101101 = .ok (.set .chipSelect true) ∧
  decode 0b01010010 = .ok (.wait 2 true) ∧
  decode 0b01110100 = .ok (.poll .busy false) ∧
  decode 0b10000000 = .ok .capture0 ∧
  decode 0b10000001 = .ok .capture1 ∧
  decode 0b10100000 = .ok .sample ∧
  decode 0b11000000 = .ok .wcmd ∧
  decode 0b11100001 = .ok (.ret 1) ∧
  decode 0b11100010 = .ok .ret2

/-- `30_encoding.md` R81: the two commands and the two reserved codes. -/
def Obligations.CommandCodesDecode : Prop :=
  decodeCmd 0b01 = .ok .cmdReset ∧
  decodeCmd 0b10 = .ok .cmdTriggerAndRead ∧
  decodeCmd 0b00 = .error .reservedCommand ∧
  decodeCmd 0b11 = .error .reservedCommand

/-- `30_encoding.md` R92, R93: for every configuration the 64 words of the step ROM, the micro-op each one is, and the
SequencerState of each address. -/
def Obligations.RomImageIsTheTableOfR92 : Prop :=
  ∀ c : Config,
    (List.range 64).map (romWord c) =
      [0xC0, 0xC0, 0x2D, 0x31, 0x24, 0x28, 0x21, 0x40, 0x20, 0x40, 0x21, 0x40,
        bif c.diagReadback then 0x81 else 0x00, 0xE1,
        bif c.companionAssertLevel then 0x29 else 0x28, 0x25, 0x41, 0x74, 0x52, 0x24,
        bif c.companionDeassertLevel then 0x29 else 0x28, 0x2C, 0x43, 0x30, 0x44, 0x80, 0x31, 0x45, 0x2D, 0xA0, 0xE1,
        0x31, 0x2D, 0x24, 0x28, 0x21, 0xE2] ++ List.replicate 27 0xE0 ∧
    (List.range 64).map (fun a => romOp c (BitVec.ofNat 6 a)) =
      (List.flatten (α := Instr) [
        [.wcmd, .wcmd],
        [.set .chipSelect true, .set .readStrobe true, .set .convst false, .set .companion false,
          .set .reset true, .wait 0 false, .set .reset false, .wait 0 false, .set .reset true, .wait 0 false,
          bif c.diagReadback then .capture1 else .nop, .ret 1],
        [.set .companion c.companionAssertLevel, .set .convst true, .wait 1 false, .poll .busy false, .wait 2 true,
          .set .convst false, .set .companion c.companionDeassertLevel],
        [.set .chipSelect false, .wait 3 false, .set .readStrobe false, .wait 4 false, .capture0,
          .set .readStrobe true, .wait 5 false, .set .chipSelect true, .sample, .ret 1],
        [.set .readStrobe true, .set .chipSelect true, .set .convst false, .set .companion false,
          .set .reset true, .ret2],
        List.replicate 27 (.ret 0)]).map .ok ∧
    (List.range 64).map (fun a => phase (BitVec.ofNat 6 a)) =
      [.idle, .awaitingConversion] ++ List.replicate 12 .resetting ++ List.replicate 7 .awaitingConversion ++
        List.replicate 9 .reading ++ [.sampleReady] ++ List.replicate 6 .aborting ++ List.replicate 27 .idle

/-- `10_state.md` R37: `cmd_ready` is 1 exactly when `upc` is 0x00 or 0x01, and these are exactly the addresses of the
ROM that hold `WCMD`. -/
def Obligations.ReadyExactlyWhereTheRomHoldsWcmd : Prop :=
  (∀ s : State, s.cmdReadyO = true ↔ s.upc = 0x00 ∨ s.upc = 0x01) ∧
  ∀ (c : Config) (a : StepAddr), romOp c a = .ok .wcmd ↔ a = 0x00 ∨ a = 0x01

/-- The model's canonical form of the ROM (log 3): two canonical lists that read the same at every address are equal. -/
def Obligations.CanonicalRomsThatReadAlikeAreEqual : Prop :=
  ∀ (c : Config) (p q : Rom), p.wf c = true → q.wf c = true → (∀ a, p.word c a = q.word c a) → p = q

/-- The model's canonical form of the ROM (log 3) is kept by every step and by placing an instruction. -/
def Obligations.RomStaysCanonical : Prop :=
  (∀ s t : State, s.rom.wf s.cfg = true → step s = .next t → t.rom.wf t.cfg = true) ∧
  ∀ (s : State) (nbits w : Nat), s.rom.wf s.cfg = true →
    (s.withFetchWord nbits w).rom.wf (s.withFetchWord nbits w).cfg = true

/-! ## The step -/

/-- `10_state.md` R26: in a Sequencer turn that is not held or in reset, the step is the execution of the instruction that
the word at `upc` decodes to, in the state in which the turn has begun: the Report port has fallen back to 0 and the
turn is taken from the model's schedule (log 1, log 12), nothing else. -/
def Obligations.StepRunsTheDecodedInstruction : Prop :=
  ∀ (s : State) (w : Byte) (i : Instr),
    s.cfg.Legal → s.nextTurn = .sequencer → s.pins.hwreset = false → s.held = false →
    s.fetch = .ok w → decode w = .ok i →
    step s = exec i { s with
      report := none
      agenda := s.agenda.tail
      turnNo := if s.agenda = [] then s.turnNo + 1 else s.turnNo }

/-- `30_encoding.md` R91: a model handed a different ROM refuses an illegal word; no step. -/
def Obligations.StepRefusesAnIllegalWord : Prop :=
  ∀ (s : State) (w : Byte) (e : Illegal),
    s.cfg.Legal → s.nextTurn = .sequencer → s.pins.hwreset = false → s.held = false →
    s.fetch = .ok w → decode w = .error e → step s = .refused (.illegalWord s.upc w e)

/-- `10_state.md` R40: a configuration with `MAX_BUSY_POLLS = 0` is refused. -/
def Obligations.StepRefusesZeroPollBound : Prop :=
  ∀ s : State, s.cfg.maxBusyPolls = 0 → step s = .refused .illegalConfiguration

/-- `20_memory.md` R62: every `upc` value is a valid ROM address; so no step stops with a fault. -/
def Obligations.NoStepFaults : Prop :=
  ∀ (s : State) (f : Fault), step s ≠ .fault f

/-- `30_encoding.md` R91, `41_line_ops.md` R143(b): with the spec's ROM and a legal configuration every step of
every state answers a next state, whatever the agents do. -/
def Obligations.SpecRomNeverStops : Prop :=
  ∀ s : State, s.rom = [] → s.cfg.Legal → ∃ t, step s = .next t

/-- The placing of an instruction (log 10, log 11): the very next step runs exactly it, for every word of the opcode
table that decodes. -/
def Obligations.PlacedInstructionRunsNext : Prop :=
  ∀ (s : State) (nbits w : Nat) (i : Instr), s.cfg.Legal → s.rom.wf s.cfg = true →
    decodeTableWord nbits w = some i →
    step (s.withFetchWord nbits w) = exec i (s.withFetchWord nbits w).beginTurn

/-! ## Ticks, ports and hardware reset -/

/-- `42_timing_ops.md` R161: a tick lowers `wait_cnt` when a wait is owed ticks, else changes nothing; it is not
recorded in the transcript. -/
def Obligations.TickCountsDownAWait : Prop :=
  ∀ s : State, s.cfg.Legal → s.pins.hwreset = false → s.nextTurn = .tick →
    step s = .next { s.beginTurn with
      waitCnt := if s.waiting = true ∧ 0 < s.waitCnt.toNat then s.waitCnt - 1 else s.waitCnt }

/-- `10_state.md` R50: while `waiting = 1` and `wait_cnt > 0` a Sequencer turn changes nothing. That the held turn is a step
that changes nothing is the model's form of "no enabled step" (log 13). -/
def Obligations.HeldSequencerDoesNothing : Prop :=
  ∀ s : State, s.cfg.Legal → s.pins.hwreset = false → s.nextTurn = .sequencer →
    s.waiting = true → 0 < s.waitCnt.toNat → step s = .next s.beginTurn

/-- `00_scope.md` R12, `10_state.md` R46, R54: the Device changes its three input ports and the Host its command port, and
nothing else. -/
def Obligations.DeviceAndHostChangeOnlyTheirPorts : Prop :=
  ∀ s : State, s.cfg.Legal → s.pins.hwreset = false →
    (∀ b lo hi, s.nextTurn = .device b lo hi →
      step s = .next { s.beginTurn with pins := { s.pins with busy := b, dataLow := lo, dataHigh := hi } }) ∧
    (∀ v c, s.nextTurn = .host v c →
      step s = .next { s.beginTurn with pins := { s.pins with cmdValid := v, cmd := c } })

/-- `10_state.md` R55: HWRESET puts every register but the unspecified data registers to the value of the table, from
any state, while `hwreset_i = 1` and at its release; configuration, ROM and transcript stay. -/
def Obligations.HwResetGivesTheTableOfR55 : Prop :=
  (∀ s : State, s.cfg.Legal → (s.pins.hwreset = true ∨ s.nextTurn = .hwreset true) →
    ∃ t, step s = .next t ∧
      t.upc = 0x00 ∧ t.out.reset = false ∧ t.out.convst = false ∧ t.out.companion = false ∧
      t.out.chipSelect = true ∧ t.out.readStrobe = true ∧ t.sampleValid = false ∧ t.diagValid = false ∧
      t.err = .none ∧ t.errLine = 0 ∧ t.waitCnt = 0 ∧ t.waiting = false ∧ t.pollCnt = 0 ∧ t.aborting = false ∧
      t.cmdLat = 0b00 ∧ t.seqState = .idle ∧ t.cmdReadyO = true ∧
      t.cfg = s.cfg ∧ t.rom = s.rom ∧ t.transcript = s.transcript ∧ t.report = none ∧
      ∀ level, s.nextTurn = .hwreset level → t.pins = { s.pins with hwreset := level }) ∧
  ∀ c : Config, (State.resetWith c).AfterReset ∧ (State.resetWith c).cfg = c ∧
    (State.resetWith c).transcript = []

/-- `10_state.md` R42, R54, R47, R23, R24, R30, R35, `43_control_ops.md` R176: what every output port shows. The data ports
show their registers at every look while their valid flag is 1; while it is 0 a look shows a free value (log 14). The
Report ports show the Report of the latest step (held in State, log 12); what its label and value ports show in a step
without a Report is open (log 20), and nothing is said of it. -/
def Obligations.StatusPortsShowTheRegisters : Prop :=
  ∀ s : State,
    s.upcO = s.upc ∧ s.errLineO = s.errLine ∧ s.sampleValidO = s.sampleValid ∧ s.diagValidO = s.diagValid ∧
    (∀ look, s.sampleValid = true →
      s.sampleO look = s.sample ∧ s.lowByteO look = s.lowByte ∧ s.highByteO look = s.highByte) ∧
    (∀ look, s.diagValid = true → s.diagLowO look = s.diagLow ∧ s.diagHighO look = s.diagHigh) ∧
    ((s.seqState = .idle → s.stO = 0) ∧ (s.seqState = .resetting → s.stO = 1) ∧
      (s.seqState = .awaitingConversion → s.stO = 2) ∧ (s.seqState = .reading → s.stO = 3) ∧
      (s.seqState = .sampleReady → s.stO = 4) ∧ (s.seqState = .aborting → s.stO = 5)) ∧
    ((s.err = .none → s.errO = 0) ∧ (s.err = .timeout → s.errO = 1) ∧
      (s.err = .misconfiguredLine → s.errO = 2) ∧ (s.err = .illegalCommand → s.errO = 3)) ∧
    (s.lineO .reset = some s.out.reset ∧ s.lineO .convst = some s.out.convst ∧
      s.lineO .companion = some s.out.companion ∧ s.lineO .chipSelect = some s.out.chipSelect ∧
      s.lineO .readStrobe = some s.out.readStrobe ∧
      s.lineO .busy = none ∧ s.lineO .dataLow = none ∧ s.lineO .dataHigh = none) ∧
    (∀ l, (dirOf s.cfg l = .output → s.drivenLevel l = s.lineO l) ∧
      (dirOf s.cfg l = .input → s.drivenLevel l = none)) ∧
    (s.report = none → s.reportValidO = false) ∧
    ∀ v, (s.report = some (.initial, v) →
        s.reportValidO = true ∧ s.reportLabelO = some 0 ∧ s.reportValueO = some v) ∧
      (s.report = some (.postConversion, v) →
        s.reportValidO = true ∧ s.reportLabelO = some 1 ∧ s.reportValueO = some v) ∧
      (s.report = some (.error, v) →
        s.reportValidO = true ∧ s.reportLabelO = some 2 ∧ s.reportValueO = some v)

/-! ## The line micro-operations -/

/-- `41_line_ops.md` R141, outside the abort routine: a line that is not configured `Out` raises MISCONFIGURED_LINE and
nothing else happens; one of the five lines with an output register is driven, and only it. -/
def Obligations.SetDrivesItsLineOrRaises : Prop :=
  ∀ (l : Line) (v : Bool) (s : State), s.aborting = false →
    (dirOf s.cfg l ≠ .output →
      exec (.set l v) s = .next { s with
        err := .misconfiguredLine, errLine := l.id, aborting := true, waiting := false, waitCnt := 0, upc := 0x1F }) ∧
    (dirOf s.cfg l = .output → l.id.toNat ≤ 4 →
      ∃ o : Outputs, o.level l = some v ∧ (∀ m, m ≠ l → o.level m = s.out.level m) ∧
        exec (.set l v) s = .next { s with
          out := o, transcript := s.transcript ++ [.set l v], upc := s.upc + 1 })

/-- `41_line_ops.md` R142: in the abort routine a line that is not configured `Out` is skipped; one that is, is
driven as in R141. -/
def Obligations.SetWhileAbortingSkipsOrDrives : Prop :=
  ∀ (l : Line) (v : Bool) (s : State), s.aborting = true →
    (dirOf s.cfg l ≠ .output → exec (.set l v) s = .next { s with upc := s.upc + 1 }) ∧
    (dirOf s.cfg l = .output → l.id.toNat ≤ 4 →
      ∃ o : Outputs, o.level l = some v ∧ (∀ m, m ≠ l → o.level m = s.out.level m) ∧
        exec (.set l v) s = .next { s with
          out := o, transcript := s.transcript ++ [.set l v], upc := s.upc + 1 })

/-- `41_line_ops.md` R143(b): with `DIR = Out` on line 5, 6 or 7 there is no output register and a model refuses the
`SET`. -/
def Obligations.SetWithoutOutputRegisterIsRefused : Prop :=
  ∀ (l : Line) (v : Bool) (s : State), 5 ≤ l.id.toNat → dirOf s.cfg l = .output →
    exec (.set l v) s = .refused (.noOutputRegister l)

/-- `41_line_ops.md` R146: direction, then read, then exit test, then bound test. The level read on BUSY is the pin's; on
the lines 0 to 4 it is a free value (log 7), so nothing is said of it. A data bus is never polled and raises
(`30_encoding.md` R91, `20_memory.md` R61, `41_line_ops.md` R147(f)), also where it is configured `In`, which R146's own
check would let pass: the model's choice (log 19). -/
def Obligations.PollReadsCountsAndBranches : Prop :=
  ∀ (l : Line) (v : Bool) (s : State),
    (dirOf s.cfg l ≠ .input ∨ l = .dataLow ∨ l = .dataHigh →
      exec (.poll l v) s = .next { s with
        err := .misconfiguredLine, errLine := l.id, aborting := true, waiting := false, waitCnt := 0, upc := 0x1F }) ∧
    (dirOf s.cfg l = .input → l ≠ .dataLow → l ≠ .dataHigh →
      ∃ (x : Bool) (k : Nat), (l = .busy → x = s.pins.busy ∧ k = s.freeNo) ∧
        (x = v → exec (.poll l v) s = .next { s with
          transcript := s.transcript ++ [.readBit l x], pollCnt := s.pollCnt + 1, freeNo := k, upc := s.upc + 2 }) ∧
        (x ≠ v → s.pollCnt + 1 = s.cfg.maxBusyPolls → exec (.poll l v) s = .next { s with
          transcript := s.transcript ++ [.readBit l x], pollCnt := s.pollCnt + 1, freeNo := k,
          err := .timeout, errLine := l.id, aborting := true, waiting := false, waitCnt := 0, upc := 0x1F }) ∧
        (x ≠ v → s.pollCnt + 1 ≠ s.cfg.maxBusyPolls → exec (.poll l v) s = .next { s with
          transcript := s.transcript ++ [.readBit l x], pollCnt := s.pollCnt + 1, freeNo := k, upc := s.upc + 1 }))

/-- `41_line_ops.md` R150: `CAPTURE 0` is the word 0x80, stands only at 0x19, takes both buses into the sample pair, or
raises for the first bus, `DATA_LOW` before `DATA_HIGH`, that is not configured `In`. -/
def Obligations.CaptureSampleTakesBothBuses : Prop :=
  decode 0x80 = .ok .capture0 ∧ (∀ (c : Config) (a : StepAddr), romOp c a = .ok .capture0 ↔ a = 0x19) ∧
  ∀ s : State,
    (s.cfg.dir.dataLow ≠ .input → exec .capture0 s = .next { s with
      err := .misconfiguredLine, errLine := 6, aborting := true, waiting := false, waitCnt := 0, upc := 0x1F }) ∧
    (s.cfg.dir.dataLow = .input → s.cfg.dir.dataHigh ≠ .input → exec .capture0 s = .next { s with
      err := .misconfiguredLine, errLine := 7, aborting := true, waiting := false, waitCnt := 0, upc := 0x1F }) ∧
    (s.cfg.dir.dataLow = .input → s.cfg.dir.dataHigh = .input → exec .capture0 s = .next { s with
      transcript := s.transcript ++ [.readByte .dataLow s.pins.dataLow, .readByte .dataHigh s.pins.dataHigh]
      lowByte := s.pins.dataLow, highByte := s.pins.dataHigh, upc := s.upc + 1 })

/-- `41_line_ops.md` R151: `CAPTURE 1` is the word 0x81, stands only at 0x0C with `DIAG_READBACK = 1`, takes both buses into
the diagnostic pair, sets `diag_valid` and reports INITIAL; its errors are those of R150. -/
def Obligations.CaptureDiagnosticReportsInitial : Prop :=
  decode 0x81 = .ok .capture1 ∧
  (∀ (c : Config) (a : StepAddr), romOp c a = .ok .capture1 ↔ a = 0x0C ∧ c.diagReadback = true) ∧
  ∀ s : State,
    (s.cfg.dir.dataLow ≠ .input → exec .capture1 s = .next { s with
      err := .misconfiguredLine, errLine := 6, aborting := true, waiting := false, waitCnt := 0, upc := 0x1F }) ∧
    (s.cfg.dir.dataLow = .input → s.cfg.dir.dataHigh ≠ .input → exec .capture1 s = .next { s with
      err := .misconfiguredLine, errLine := 7, aborting := true, waiting := false, waitCnt := 0, upc := 0x1F }) ∧
    (s.cfg.dir.dataLow = .input → s.cfg.dir.dataHigh = .input → exec .capture1 s = .next { s with
      transcript := s.transcript ++ [.readByte .dataLow s.pins.dataLow, .readByte .dataHigh s.pins.dataHigh,
        .report .initial (combine s.cfg.combineLegacyMul s.pins.dataLow s.pins.dataHigh)]
      report := some (.initial, combine s.cfg.combineLegacyMul s.pins.dataLow s.pins.dataHigh)
      diagLow := s.pins.dataLow, diagHigh := s.pins.dataHigh, diagValid := true, upc := s.upc + 1 })

/-! ## WAIT -/

/-- `42_timing_ops.md` R162, R163, R164: the begin, held and end steps of `WAIT tsel,b` with `n = T[tsel]`; a wait of 0
units is done in its begin step; `b` matters only for where `upc` goes. That the held wait is a step that changes nothing,
where R162 enables no step, is the model's form (log 13). -/
def Obligations.WaitBeginsHoldsAndEnds : Prop :=
  ∀ (tsel : BitVec 3) (b : Bool) (s : State) (n : U32),
    [s.cfg.tReset, s.cfg.tConvstSettle, s.cfg.tBusyPoll, s.cfg.tCsSettle, s.cfg.tRdPulse,
      s.cfg.tRdRelease][tsel.toNat]? = some n →
    (s.waiting = false → n = 0 → exec (.wait tsel b) s = .next { s with
      transcript := s.transcript ++ [.wait tsel 0], upc := if b then s.upc - 1 else s.upc + 1 }) ∧
    (s.waiting = false → n ≠ 0 → exec (.wait tsel b) s = .next { s with
      transcript := s.transcript ++ [.wait tsel n], waitCnt := n, waiting := true }) ∧
    (s.waiting = true → s.waitCnt ≠ 0 → exec (.wait tsel b) s = .next s) ∧
    (s.waiting = true → s.waitCnt = 0 → exec (.wait tsel b) s = .next { s with
      waiting := false, upc := if b then s.upc - 1 else s.upc + 1 })

/-- `30_encoding.md` R91: `tsel` 6 and 7 are reserved, and no word decodes to such a `WAIT`; the model refuses the
term (log 8). -/
def Obligations.WaitWithReservedIndexIsRefused : Prop :=
  ∀ (tsel : BitVec 3) (b : Bool), 6 ≤ tsel.toNat →
    (∀ s : State, exec (.wait tsel b) s = .refused (.reservedTimeConstant tsel)) ∧
    ∀ w : Code, decodeCode w ≠ .ok (.wait tsel b)

/-- `42_timing_ops.md` R162: a wait does not return early. Whatever turns are taken, with no HWRESET among them, as long
as fewer ticks have come than are owed the sequencer stands in its wait, no line moves and nothing is recorded. -/
def Obligations.WaitDoesNotReturnEarly : Prop :=
  ∀ (s : State) (ts rest : List Turn), s.cfg.Legal → s.pins.hwreset = false → s.waiting = true →
    s.agenda = ts ++ rest → .hwreset true ∉ ts → ticksIn ts < s.waitCnt.toNat →
    ∃ t : State, Host.Core.run core ts.length s = .next t ∧
      t.waiting = true ∧ t.waitCnt.toNat = s.waitCnt.toNat - ticksIn ts ∧ t.upc = s.upc ∧ t.out = s.out ∧
      t.transcript = s.transcript ∧ t.agenda = rest

/-! ## The control micro-operations and the sample arithmetic -/

/-- `43_control_ops.md` R170: `NOP` is the word 0x00, stands only at 0x0C with `DIAG_READBACK = 0`, moves to the next step
and changes nothing else. -/
def Obligations.NopOnlyAdvances : Prop :=
  decode 0x00 = .ok .nop ∧
  (∀ (c : Config) (a : StepAddr), romOp c a = .ok .nop ↔ a = 0x0C ∧ c.diagReadback = false) ∧
  ∀ s : State, exec .nop s = .next { s with upc := s.upc + 1 }

/-- `43_control_ops.md` R172: `SAMPLE` is the word 0xA0, stands only at 0x1D, combines the pair, sets `sample_valid` and
reports POST_CONVERSION. -/
def Obligations.SampleCombinesAndReports : Prop :=
  decode 0xA0 = .ok .sample ∧ (∀ (c : Config) (a : StepAddr), romOp c a = .ok .sample ↔ a = 0x1D) ∧
  ∀ s : State, exec .sample s = .next { s with
    sample := combine s.cfg.combineLegacyMul s.lowByte s.highByte
    sampleValid := true
    transcript := s.transcript ++ [.report .postConversion (combine s.cfg.combineLegacyMul s.lowByte s.highByte)]
    report := some (.postConversion, combine s.cfg.combineLegacyMul s.lowByte s.highByte)
    upc := s.upc + 1 }

/-- `43_control_ops.md` R173: the canonical combination is `hi` above `lo`; the legacy one is the exact unsigned product,
at most 65025. -/
def Obligations.CombineIsConcatenationOrProduct : Prop :=
  ∀ lo hi : Byte,
    (combine false lo hi).toNat = hi.toNat * 256 + lo.toNat ∧
    (combine true lo hi).toNat = lo.toNat * hi.toNat ∧ (combine true lo hi).toNat ≤ 65025

/-- `43_control_ops.md` R174: the round-trip law holds for all pairs in the canonical mode; in the legacy mode it holds
for the pair of zeros only (`95_test_vectors.md` S1). -/
def Obligations.DecomposeOfCombineRoundTrip : Prop :=
  (∀ v : Half, (decompose v).1.toNat = v.toNat % 256 ∧ (decompose v).2.toNat = v.toNat / 256) ∧
  ∀ lo hi : Byte,
    (decompose (combine false lo hi) = (lo, hi)) ∧
    (decompose (combine true lo hi) = (lo, hi) ↔ lo = 0 ∧ hi = 0)

/-- `43_control_ops.md` R177, R178, R179: `WCMD` with no command presented rests; at 0x00 and 0x01 it accepts
`CMD_RESET`, at 0x01 `CMD_TRIGGER_AND_READ`, and refuses everything else. -/
def Obligations.WcmdRestsAcceptsOrRefuses : Prop :=
  ∀ s : State,
    (s.pins.cmdValid = false → exec .wcmd s = .next s) ∧
    (s.pins.cmdValid = true → s.upc = 0x00 ∨ s.upc = 0x01 →
      (s.pins.cmd = 0b01 → exec .wcmd s = .next { s with
        cmdLat := 0b01, transcript := s.transcript ++ [.cmd 0b01], err := .none, errLine := 0,
        sampleValid := false, diagValid := false, upc := 0x02 }) ∧
      (s.pins.cmd = 0b10 → s.upc = 0x01 → exec .wcmd s = .next { s with
        cmdLat := 0b10, transcript := s.transcript ++ [.cmd 0b10], err := .none, errLine := 0,
        sampleValid := false, pollCnt := 0, upc := 0x0E }) ∧
      (s.pins.cmd ≠ 0b01 → ¬ (s.pins.cmd = 0b10 ∧ s.upc = 0x01) → exec .wcmd s = .next { s with
        cmdLat := s.pins.cmd, transcript := s.transcript ++ [.cmd s.pins.cmd, .report .error 0x0003],
        report := some (.error, 0x0003), err := .illegalCommand, errLine := 0 }))

/-- `40_host_commands.md` R111: the acceptance of `CMD_RESET` at either quiescent address. That a command as an instruction
is the step that consumes it is the model's form (log 10). -/
def Obligations.CmdResetIsAccepted : Prop :=
  ∀ s : State, s.upc = 0x00 ∨ s.upc = 0x01 → exec .cmdReset s = .next { s with
    cmdLat := 0b01, transcript := s.transcript ++ [.cmd 0b01], err := .none, errLine := 0,
    sampleValid := false, diagValid := false, upc := 0x02 }

/-- `40_host_commands.md` R120: the acceptance of `CMD_TRIGGER_AND_READ`, only at 0x01 (log 10). -/
def Obligations.CmdTriggerIsAcceptedAtTheBaseline : Prop :=
  ∀ s : State, s.upc = 0x01 → exec .cmdTriggerAndRead s = .next { s with
    cmdLat := 0b10, transcript := s.transcript ++ [.cmd 0b10], err := .none, errLine := 0,
    sampleValid := false, pollCnt := 0, upc := 0x0E }

/-- `40_host_commands.md` R121: `CMD_TRIGGER_AND_READ` consumed at 0x00 is refused. That a command as an instruction is the
step that consumes it is the model's form (log 10). -/
def Obligations.CmdTriggerIsRefusedAtIdle : Prop :=
  ∀ s : State, s.upc = 0x00 → exec .cmdTriggerAndRead s = .next { s with
    cmdLat := 0b10, transcript := s.transcript ++ [.cmd 0b10, .report .error 0x0003],
    report := some (.error, 0x0003), err := .illegalCommand, errLine := 0 }

/-- `40_host_commands.md` R134, `10_state.md` R54: a command presented while `cmd_ready = 0` leaves no trace. That the word
`WCMD` at an address other than 0x00 and 0x01, which the spec's ROM has not, consumes nothing is the model's inference
from these rules, where R177's own pseudocode tests no `cmd_ready` (log 9); that a command as an instruction is the step
in which it is presented is the model's form (log 10). -/
def Obligations.CommandWhileBusyLeavesNoTrace : Prop :=
  ∀ s : State, s.upc ≠ 0x00 → s.upc ≠ 0x01 →
    exec .cmdReset s = .next s ∧ exec .cmdTriggerAndRead s = .next s ∧ exec .wcmd s = .next s

/-- `43_control_ops.md` R181: `RET 0` goes to 0x00 and `RET 1` to 0x01; nothing else changes; where they stand. -/
def Obligations.RetGoesToItsQuiescentAddress : Prop :=
  decode 0xE0 = .ok (.ret 0) ∧ decode 0xE1 = .ok (.ret 1) ∧
  (∀ (c : Config) (a : StepAddr),
    (romOp c a = .ok (.ret 0) ↔ 0x25 ≤ a.toNat) ∧ (romOp c a = .ok (.ret 1) ↔ a = 0x0D ∨ a = 0x1E)) ∧
  ∀ s : State,
    exec (.ret 0) s = .next { s with upc := 0x00 } ∧ exec (.ret 1) s = .next { s with upc := 0x01 }

/-- `43_control_ops.md` R182: `RET 2`, the word 0xE2 at 0x24, reports the error, ends the abort and returns by `cmd_lat`. -/
def Obligations.RetTwoEndsTheAbort : Prop :=
  decode 0xE2 = .ok .ret2 ∧ (∀ (c : Config) (a : StepAddr), romOp c a = .ok .ret2 ↔ a = 0x24) ∧
  ∀ s : State, ∃ v : Half, v.toNat = s.errLine.toNat * 256 + s.err.code.toNat ∧
    exec .ret2 s = .next { s with
      transcript := s.transcript ++ [.report .error v], report := some (.error, v), aborting := false,
      upc := if s.cmdLat = 0b01 then 0x00 else 0x01 }

/-! ## What instructions leave alone -/

/-- `20_memory.md` R72, `00_scope.md` R9: no step and no instruction writes the step ROM or the configuration: every ROM
address reads as before. An instruction leaves the input ports and the schedule alone. -/
def Obligations.RomAndConfigurationNeverChange : Prop :=
  (∀ s t : State, step s = .next t → t.cfg = s.cfg ∧ t.rom = s.rom ∧ ∀ a, t.romByte a = s.romByte a) ∧
  ∀ (i : Instr) (s t : State), exec i s = .next t →
    t.cfg = s.cfg ∧ t.pins = s.pins ∧ t.agenda = s.agenda ∧ t.turnNo = s.turnNo ∧
      ∀ a, t.romByte a = s.romByte a

/-- `10_state.md` R25, R44: each data register is written by the micro-ops named and by no other instruction, the output
lines by `SET` alone; without HWRESET no outside agent writes any of them. -/
def Obligations.RegistersHaveTheirNamedWriters : Prop :=
  (∀ (i : Instr) (s t : State), exec i s = .next t →
    (i ≠ .capture0 → t.lowByte = s.lowByte ∧ t.highByte = s.highByte) ∧
    (i ≠ .sample → t.sample = s.sample) ∧
    (i ≠ .capture1 → t.diagLow = s.diagLow ∧ t.diagHigh = s.diagHigh) ∧
    ((∀ l v, i ≠ .set l v) → t.out = s.out)) ∧
  ∀ s t : State, s.noHwReset → s.nextTurn ≠ .sequencer → step s = .next t →
    t.lowByte = s.lowByte ∧ t.highByte = s.highByte ∧ t.sample = s.sample ∧ t.diagLow = s.diagLow ∧
      t.diagHigh = s.diagHigh ∧ t.out = s.out

/-- `10_state.md` R33, R34: `sample_valid` and `diag_valid` rise only by `SAMPLE` and `CAPTURE 1`; an instruction lowers
them only by accepting a command at a quiescent address, and only `CMD_RESET` lowers `diag_valid`. The command rows as
instructions are the model's form (log 10). -/
def Obligations.ValidFlagsRiseAndFallAsStated : Prop :=
  ∀ (i : Instr) (s t : State), exec i s = .next t →
    (s.sampleValid = false → t.sampleValid = true → i = .sample) ∧
    (s.diagValid = false → t.diagValid = true → i = .capture1) ∧
    (s.sampleValid = true → t.sampleValid = false →
      (i = .wcmd ∧ s.pins.cmdValid = true ∧ s.pins.cmd = t.cmdLat ∨ i = .cmdReset ∧ t.cmdLat = 0b01 ∨
        i = .cmdTriggerAndRead ∧ t.cmdLat = 0b10) ∧
      (s.upc = 0x00 ∧ t.cmdLat = 0b01 ∧ t.upc = 0x02 ∨ s.upc = 0x01 ∧ t.cmdLat = 0b01 ∧ t.upc = 0x02 ∨
        s.upc = 0x01 ∧ t.cmdLat = 0b10 ∧ t.upc = 0x0E) ∧
      t.transcript = s.transcript ++ [.cmd t.cmdLat] ∧ t.err = .none) ∧
    (s.diagValid = true → t.diagValid = false →
      (i = .wcmd ∧ s.pins.cmdValid = true ∧ s.pins.cmd = 0b01 ∨ i = .cmdReset) ∧
      (s.upc = 0x00 ∨ s.upc = 0x01) ∧ t.cmdLat = 0b01 ∧ t.upc = 0x02 ∧
      t.transcript = s.transcript ++ [.cmd 0b01] ∧ t.err = .none)

/-- `60_exceptions.md` R203, `40_host_commands.md` R132(g), `43_control_ops.md` R180(a): BUSY is sampled only by
`POLL`, the buses only by `CAPTURE`, the command port only by `WCMD`; no other level makes a difference. -/
def Obligations.InputsAreSampledOnlyWhereStated : Prop :=
  ∀ (i : Instr) (s : State) (p : Pins), sampledAlike i s.pins p →
    exec i { s with pins := p } = outcomeWithPins p (exec i s)

/-- `60_exceptions.md` R196, R197: a raise is precise. The step that raises changes the registers of R196 and nothing
else, but for the read and the count that a timeout is the outcome of (and the model's count of free values, log 7). -/
def Obligations.RaisesArePrecise : Prop :=
  ∀ (i : Instr) (s t : State), s.aborting = false → exec i s = .next t → t.aborting = true →
    (∃ l : Line, t = { s with
      err := .misconfiguredLine, errLine := l.id, aborting := true, waiting := false, waitCnt := 0, upc := 0x1F }) ∨
    (∃ (l : Line) (v x : Bool) (k : Nat), i = .poll l v ∧ x ≠ v ∧ s.pollCnt + 1 = s.cfg.maxBusyPolls ∧ t = { s with
      transcript := s.transcript ++ [.readBit l x], pollCnt := s.pollCnt + 1, freeNo := k,
      err := .timeout, errLine := l.id, aborting := true, waiting := false, waitCnt := 0, upc := 0x1F })

/-- `43_control_ops.md` R183: every way in which an instruction can move `upc` to something other than `upc + 1`. -/
def Obligations.StepIndexMovesAsSummarised : Prop :=
  ∀ (i : Instr) (s t : State), exec i s = .next t → t.upc ≠ s.upc + 1 → t.upc ≠ s.upc →
    (i = .wcmd ∨ i = .cmdReset ∨ i = .cmdTriggerAndRead) ∧ (t.upc = 0x02 ∨ t.upc = 0x0E) ∨
    (∃ l v, i = .poll l v ∧ t.upc = s.upc + 2) ∨
    (∃ k, i = .wait k true ∧ t.upc = s.upc - 1) ∨
    ((i = .ret 0 ∨ i = .ret 1 ∨ i = .ret2) ∧ (t.upc = 0x00 ∨ t.upc = 0x01)) ∨
    (t.upc = 0x1F ∧ t.aborting = true ∧ (t.err = .timeout ∨ t.err = .misconfiguredLine))

/-- `43_control_ops.md` R176, `00_scope.md` R14: a step appends its events to the transcript, at most one of them a Report, and
the Report port shows exactly that one (log 12). -/
def Obligations.ReportPortShowsTheReportOfTheStep : Prop :=
  ∀ s t : State, step s = .next t →
    ∃ es : List Event, t.transcript = s.transcript ++ es ∧ es.filterMap Event.asReport = t.report.toList

/-! ## Where errors can arise -/

/-- `60_exceptions.md` R195, R200: the points of the spec's ROM at which a raise is possible, with the condition and what it
records: no raise elsewhere and none in the abort routine; and at each point, under the condition of its row, the raise
happens. The premise `s.Inv` rules out states in which the abort routine runs with
`aborting = 0`. -/
def Obligations.RaisePointsOfTheRom : Prop :=
  (∀ (s t : State) (i : Instr), s.Inv → romOp s.cfg s.upc = .ok i → s.aborting = true → exec i s = .next t →
    t.err = s.err ∧ t.errLine = s.errLine ∧ t.upc ≠ 0x1F) ∧
  (∀ (s t : State) (i : Instr), s.Inv → romOp s.cfg s.upc = .ok i → s.aborting = false → exec i s = .next t →
    t.aborting = true →
    (s.upc ∈ [0x02, 0x03, 0x04, 0x05, 0x06, 0x08, 0x0A, 0x0E, 0x0F, 0x13, 0x14, 0x15, 0x17, 0x1A, 0x1C] ∧
      t.err = .misconfiguredLine ∧ ∃ l v, i = .set l v ∧ dirOf s.cfg l ≠ .output ∧ t.errLine = l.id) ∨
    ((s.upc = 0x0C ∧ s.cfg.diagReadback = true ∨ s.upc = 0x19) ∧ t.err = .misconfiguredLine ∧
      (s.cfg.dir.dataLow ≠ .input ∧ t.errLine = 6 ∨
        s.cfg.dir.dataLow = .input ∧ s.cfg.dir.dataHigh ≠ .input ∧ t.errLine = 7)) ∨
    (s.upc = 0x11 ∧ s.cfg.dir.busy ≠ .input ∧ t.err = .misconfiguredLine ∧ t.errLine = 5) ∨
    (s.upc = 0x11 ∧ s.cfg.dir.busy = .input ∧ s.pins.busy = true ∧
      s.pollCnt + 1 = s.cfg.maxBusyPolls ∧ t.err = .timeout ∧ t.errLine = 5)) ∧
  ∀ (s : State) (i : Instr), romOp s.cfg s.upc = .ok i → s.aborting = false →
    (s.upc ∈ [0x02, 0x03, 0x04, 0x05, 0x06, 0x08, 0x0A, 0x0E, 0x0F, 0x13, 0x14, 0x15, 0x17, 0x1A, 0x1C] →
      ∃ l v, i = .set l v ∧ (dirOf s.cfg l ≠ .output →
        ∃ t, exec i s = .next t ∧ t.aborting = true ∧ t.err = .misconfiguredLine ∧ t.errLine = l.id ∧ t.upc = 0x1F)) ∧
    (s.upc = 0x0C ∧ s.cfg.diagReadback = true ∨ s.upc = 0x19 →
      (s.cfg.dir.dataLow ≠ .input →
        ∃ t, exec i s = .next t ∧ t.aborting = true ∧ t.err = .misconfiguredLine ∧ t.errLine = 6 ∧ t.upc = 0x1F) ∧
      (s.cfg.dir.dataLow = .input → s.cfg.dir.dataHigh ≠ .input →
        ∃ t, exec i s = .next t ∧ t.aborting = true ∧ t.err = .misconfiguredLine ∧ t.errLine = 7 ∧ t.upc = 0x1F)) ∧
    (s.upc = 0x11 →
      (s.cfg.dir.busy ≠ .input →
        ∃ t, exec i s = .next t ∧ t.aborting = true ∧ t.err = .misconfiguredLine ∧ t.errLine = 5 ∧ t.upc = 0x1F) ∧
      (s.cfg.dir.busy = .input → s.pins.busy = true → s.pollCnt + 1 = s.cfg.maxBusyPolls →
        ∃ t, exec i s = .next t ∧ t.aborting = true ∧ t.err = .timeout ∧ t.errLine = 5 ∧ t.upc = 0x1F))

/-! ## Invariants -/

/-- The protocol invariant (`10_state.md` R56, `70_reset_and_hazards.md` R230) holds after reset, in every legal
configuration and for any contents of what R55 leaves unspecified. -/
def Obligations.ProtocolInvariantAfterReset : Prop :=
  ∀ s : State, s.cfg.Legal → s.AfterReset → s.Inv

/-- Every step of every agent keeps the protocol invariant (`10_state.md` R56, `70_reset_and_hazards.md` R230). -/
def Obligations.ProtocolInvariantIsKept : Prop :=
  ∀ s t : State, s.Inv → step s = .next t → t.Inv

/-- `10_state.md` R56: the seven clauses hold in every reachable state. -/
def Obligations.ReachableStatesMeetR56 : Prop :=
  ∀ s : State, Reachable s →
    s.upc.toNat ≤ 0x24 ∧
    (s.waiting = true → ∃ tsel b, romOp s.cfg s.upc = .ok (.wait tsel b)) ∧
    (s.aborting = true ↔ 0x1F ≤ s.upc.toNat ∧ s.upc.toNat ≤ 0x24) ∧
    s.pollCnt.toNat ≤ s.cfg.maxBusyPolls.toNat ∧
    (s.aborting = true → s.err ≠ .none) ∧
    (s.sampleValid = true → s.upc = 0x1E ∨ s.upc = 0x01) ∧
    s.stO.toNat ≤ 5 ∧ s.errO.toNat ≤ 3

/-- `70_reset_and_hazards.md` R230: in every reachable state, under every configuration of directions, READ_STROBE is
asserted only while CHIP_SELECT is. -/
def Obligations.ReadStrobeOnlyInsideChipSelect : Prop :=
  ∀ s : State, Reachable s → s.out.readStrobe = false → s.out.chipSelect = false

/-- `70_reset_and_hazards.md` R231, `40_host_commands.md` R128: in a reachable state in which the Sequencer is about to
execute `CAPTURE 0`, CHIP_SELECT and READ_STROBE are both asserted; a step that records a bus read without them is the
diagnostic one at 0x0C, which leaves the sample pair alone. The lines fall only in the steps that end at 0x16 and 0x18,
stay asserted until the capture step has completed, and whatever turns follow a fall, `CAPTURE 0` is next only after the
ticks of T_CS_SETTLE and of T_RD_PULSE. -/
def Obligations.SampleIsCapturedInsideTheReadWindow : Prop :=
  ∀ s : State, Reachable s →
    (romOp s.cfg s.upc = .ok .capture0 → s.out.chipSelect = false ∧ s.out.readStrobe = false) ∧
    (∀ (t : State) (l : Line) (v : Byte), step s = .next t → t.transcript ≠ s.transcript →
      .readByte l v ∈ t.transcript.drop s.transcript.length →
      s.out.chipSelect = false ∧ s.out.readStrobe = false ∨
      s.upc = 0x0C ∧ s.cfg.diagReadback = true ∧ t.lowByte = s.lowByte ∧ t.highByte = s.highByte) ∧
    (∀ t : State, step s = .next t →
      (s.out.chipSelect = true → t.out.chipSelect = false → t.upc = 0x16 ∧ t.waiting = false) ∧
      (s.out.readStrobe = true → t.out.readStrobe = false → t.upc = 0x18 ∧ t.waiting = false)) ∧
    (s.within 0x16 0x19 → s.out.chipSelect = false) ∧ (s.within 0x18 0x19 → s.out.readStrobe = false) ∧
    (∀ t : State, exec .capture0 s = .next t → t.out = s.out) ∧
    ∀ (t : State) (ts rest : List Turn), s.agenda = ts ++ rest → s.waiting = false →
      Host.Core.run core ts.length s = .next t → t.upc = 0x19 →
      (s.upc = 0x16 → s.cfg.tCsSettle.toNat + s.cfg.tRdPulse.toNat ≤ ticksIn ts) ∧
      (s.upc = 0x18 → s.cfg.tRdPulse.toNat ≤ ticksIn ts)

/-- `10_state.md` R32: the only transitions of SequencerState, HWRESET aside; the abort routine ends in Idle exactly when
the failed command was `CMD_RESET`. -/
def Obligations.SequencerStateMovesAsR32Allows : Prop :=
  ∀ s t : State, s.Inv → s.noHwReset → step s = .next t →
    t.seqState = s.seqState ∨
    (s.seqState.allowed t.seqState = true ∧
      (s.seqState = .aborting → (t.seqState = .idle ↔ s.cmdLat = 0b01)))

/-! ## Whole routines -/

/-- `60_exceptions.md` R198, R199, R200, `43_control_ops.md` R182: from its entry the abort routine reaches its end in
exactly six Sequencer steps, under every configuration of directions: each line that can be driven is at its idle level,
the first error stays recorded and is reported, and `upc` is quiescent. It is said of one schedule (log 1): six turns of
the Sequencer in a row, no other agent's turn among them. -/
def Obligations.AbortRoutineForcesTheLinesIdle : Prop :=
  ∀ (s : State) (rest : List Turn), s.rom = [] → s.cfg.Legal → s.upc = 0x1F → s.aborting = true →
    s.waiting = false → s.pins.hwreset = false → s.agenda = List.replicate 6 .sequencer ++ rest →
    Host.Core.run core 6 s = .next { s with
      out := idleOutputs s.cfg s.out
      transcript := s.transcript ++ abortEvents s.cfg ++ [.report .error (errorValue s.err s.errLine)]
      report := some (.error, errorValue s.err s.errLine)
      aborting := false
      upc := if s.cmdLat = 0b01 then 0x00 else 0x01
      agenda := rest }

/-- `40_host_commands.md` R111 to R115, R135: from either quiescent address, with the nominal directions and any time
constants, `CMD_RESET` runs to AwaitingConversion with the transcript of R135. It is said of one schedule (log 1), the
turns of `resetTurns`: exactly the ticks needed and no other agent's turn; `CommandsEndAsStatedUnderEverySchedule` speaks of
every other. -/
def Obligations.ResetRoutineReachesTheBaseline : Prop :=
  ∀ (s : State) (rest : List Turn), s.Inv → s.cfg.dir = .nominal → s.cmdReady = true →
    s.pins.hwreset = false → s.pins.cmdValid = true → s.pins.cmd = 0b01 →
    s.agenda = .sequencer :: (resetTurns s.cfg ++ rest) →
    Host.Core.run core (1 + (resetTurns s.cfg).length) s = .next { s with
      upc := 0x01
      out := { reset := true, convst := false, companion := false, chipSelect := true, readStrobe := true }
      cmdLat := 0b01, err := .none, errLine := 0, sampleValid := false
      diagValid := s.cfg.diagReadback
      diagLow := if s.cfg.diagReadback then s.pins.dataLow else s.diagLow
      diagHigh := if s.cfg.diagReadback then s.pins.dataHigh else s.diagHigh
      transcript := s.transcript ++ [.cmd 0b01] ++ resetEvents s.cfg s.pins.dataLow s.pins.dataHigh
      report := none
      agenda := rest }

/-- `40_host_commands.md` R120 to R131, R135, `41_line_ops.md` R147(a): with the nominal directions, any time constants and `k`
busy answers, `k + 1` within the bound, the acquisition performs exactly `k + 1` polls and captures the bytes that stand
on the buses in the read window; transcript as in R135. It is said of one schedule (log 1), the turns of
`acquisitionTurns`: exactly the ticks needed, the Device's turns at two places; `CommandsEndAsStatedUnderEverySchedule`
speaks of every other. -/
def Obligations.AcquisitionCapturesTheSample : Prop :=
  ∀ (s : State) (k : Nat) (lo hi : Byte) (rest : List Turn), s.Inv → s.cfg.dir = .nominal → s.upc = 0x01 →
    s.pins.hwreset = false → s.pins.cmdValid = true → s.pins.cmd = 0b10 →
    k + 1 ≤ s.cfg.maxBusyPolls.toNat →
    s.agenda = .sequencer :: (acquisitionTurns s.cfg k lo hi ++ rest) →
    Host.Core.run core (1 + (acquisitionTurns s.cfg k lo hi).length) s = .next { s with
      upc := 0x01
      out := { reset := s.out.reset, convst := false, companion := s.cfg.companionDeassertLevel
               chipSelect := true, readStrobe := true }
      cmdLat := 0b10, err := .none, errLine := 0
      pollCnt := BitVec.ofNat 32 (k + 1)
      lowByte := lo, highByte := hi
      sample := combine s.cfg.combineLegacyMul lo hi, sampleValid := true
      pins := { s.pins with busy := false, dataLow := lo, dataHigh := hi }
      transcript := s.transcript ++ [.cmd 0b10] ++ acquisitionEvents s.cfg k lo hi
      report := none
      agenda := rest }

/-- `41_line_ops.md` R147(b), `40_host_commands.md` R132(c), `60_exceptions.md` R191: a device that never shows done is
polled exactly `MAX_BUSY_POLLS` times; then the error is recorded, the lines are forced idle, no bus is read and the
block is ready at 0x01. It is said of one schedule (log 1), the turns of `timeoutTurns`: exactly the ticks needed, one
turn of the Device; `CommandsEndAsStatedUnderEverySchedule` speaks of every other. -/
def Obligations.AcquisitionTimesOutWithinTheBound : Prop :=
  ∀ (s : State) (k : Nat) (rest : List Turn), s.Inv → s.cfg.dir = .nominal → s.upc = 0x01 →
    s.pins.hwreset = false → s.pins.cmdValid = true → s.pins.cmd = 0b10 →
    k + 1 = s.cfg.maxBusyPolls.toNat →
    s.agenda = .sequencer :: (timeoutTurns s.cfg k ++ rest) →
    Host.Core.run core (1 + (timeoutTurns s.cfg k).length) s = .next { s with
      upc := 0x01
      out := { reset := true, convst := false, companion := false, chipSelect := true, readStrobe := true }
      cmdLat := 0b10, err := .timeout, errLine := 5, sampleValid := false
      pollCnt := s.cfg.maxBusyPolls
      pins := { s.pins with busy := true, dataLow := 0, dataHigh := 0 }
      transcript := s.transcript ++ [.cmd 0b10, .set .companion s.cfg.companionAssertLevel, .set .convst true,
          .wait 1 s.cfg.tConvstSettle] ++ busyEvents s.cfg k ++ [.readBit .busy true] ++
        [.set .readStrobe true, .set .chipSelect true, .set .convst false, .set .companion false, .set .reset true,
          .report .error 0x0501]
      report := some (.error, 0x0501)
      agenda := rest }

/-! ## Every schedule -/

/-- `70_reset_and_hazards.md` R236: under F1 and F2 (`Fair`) and without HWRESET, from every state that meets the protocol
invariant a quiescent address is reached, under every configuration: every accepted command ends. Without ticks a wait
that is owed one is a hang. -/
def Obligations.EveryCommandEndsUnderFairness : Prop :=
  (∀ (s : State) (f : Nat → Turn), s.Inv → s.pins.hwreset = false → neverHwReset f → Fair s f →
    ∃ n t, s.follow f n = .next t ∧ t.cmdReady = true ∧ t.waiting = false ∧ t.aborting = false) ∧
  ∀ (s : State) (f : Nat → Turn), s.cfg.Legal → s.pins.hwreset = false → s.held = true → neverHwReset f →
    (∀ n, f n ≠ .tick) →
    ∀ n, ∃ t, s.follow f n = .next t ∧ t.held = true ∧ t.upc = s.upc ∧ t.out = s.out ∧ t.transcript = s.transcript

/-- `40_host_commands.md` R112 to R115, R122 to R131, R135, `41_line_ops.md` R147(a), (b), `60_exceptions.md` R191: with the
nominal directions, any time constants and whatever turns are taken (no HWRESET), a command that ends, ends as stated.
First clause: `CMD_RESET`, from the state after its acceptance. Second clause: `CMD_TRIGGER_AND_READ`, likewise, which
ends in the sample after some `k` busy answers, or in the timeout. The bytes are those on the buses in the capture's own
turn, and no fewer ticks have come than R135 says. -/
def Obligations.CommandsEndAsStatedUnderEverySchedule : Prop :=
  (∀ (s t : State) (ts : List Turn), s.Inv → s.cfg.dir = .nominal → s.upc = 0x02 → CommandRun s ts t →
    ∃ lo hi : Byte, s.seesOnBuses ts 0x0C lo hi ∧ 3 * s.cfg.tReset.toNat ≤ ticksIn ts ∧
      t.upc = 0x01 ∧ t.transcript = s.transcript ++ resetEvents s.cfg lo hi ∧
      t.out = { reset := true, convst := false, companion := false, chipSelect := true, readStrobe := true } ∧
      t.err = s.err ∧ t.errLine = s.errLine ∧ t.sampleValid = false ∧
      t.lowByte = s.lowByte ∧ t.highByte = s.highByte ∧ t.sample = s.sample ∧ t.pollCnt = s.pollCnt ∧
      (s.cfg.diagReadback = true → t.diagValid = true ∧ t.diagLow = lo ∧ t.diagHigh = hi) ∧
      (s.cfg.diagReadback = false →
        t.diagValid = s.diagValid ∧ t.diagLow = s.diagLow ∧ t.diagHigh = s.diagHigh)) ∧
  ∀ (s t : State) (ts : List Turn), s.Inv → s.cfg.dir = .nominal → s.upc = 0x0E → s.pollCnt = 0 → CommandRun s ts t →
    t.upc = 0x01 ∧ t.diagValid = s.diagValid ∧ t.diagLow = s.diagLow ∧ t.diagHigh = s.diagHigh ∧
    ∃ k : Nat, k + 1 ≤ s.cfg.maxBusyPolls.toNat ∧ t.pollCnt.toNat = k + 1 ∧
      ((∃ lo hi : Byte, s.seesOnBuses ts 0x19 lo hi ∧
          s.cfg.tConvstSettle.toNat + k * s.cfg.tBusyPoll.toNat + s.cfg.tCsSettle.toNat + s.cfg.tRdPulse.toNat +
            s.cfg.tRdRelease.toNat ≤ ticksIn ts ∧
          t.transcript = s.transcript ++ acquisitionEvents s.cfg k lo hi ∧
          t.out = { reset := s.out.reset, convst := false, companion := s.cfg.companionDeassertLevel
                    chipSelect := true, readStrobe := true } ∧
          t.err = s.err ∧ t.errLine = s.errLine ∧ t.lowByte = lo ∧ t.highByte = hi ∧
          t.sample = combine s.cfg.combineLegacyMul lo hi ∧ t.sampleValid = true) ∨
        (k + 1 = s.cfg.maxBusyPolls.toNat ∧
          s.cfg.tConvstSettle.toNat + k * s.cfg.tBusyPoll.toNat ≤ ticksIn ts ∧
          t.transcript = s.transcript ++ timeoutEvents s.cfg k ∧
          t.out = { reset := true, convst := false, companion := false, chipSelect := true, readStrobe := true } ∧
          t.err = .timeout ∧ t.errLine = 5 ∧ t.lowByte = s.lowByte ∧ t.highByte = s.highByte ∧
          t.sample = s.sample ∧ t.sampleValid = false))
end

