-- ==== Sys2Proof/Laws/Decode.lean ====
section
/-! SUPPORT. The laws of line ids and of the decoder's shared pieces. -/

namespace Sys2Proof

variable {l m : Line} {w reserved : Byte} {i j : Instr}

@[simp] theorem Line.ofId_id (l : Line) : Line.ofId l.id = l := by cases l <;> rfl

@[simp] theorem Line.id_ofId (n : LineId) : (Line.ofId n).id = n := by
  have key : ∀ k : LineId, (Line.ofId k).id = k := by decide
  exact key n

/-- Two lines with one id are one line. -/
theorem Line.id_injective (h : l.id = m.id) : l = m := by
  rw [← Line.ofId_id l, h, Line.ofId_id]

/-- The must-be-zero test answers its instruction exactly when the reserved bits are 0. -/
theorem requireZero_eq_ok : requireZero w reserved i = .ok j ↔ w &&& reserved = 0 ∧ i = j := by
  unfold requireZero
  split <;> simp_all

/-- What a table word decodes to, its kind decodes to. -/
theorem decodeTableWord_eq_some {nbits n : Nat} :
    decodeTableWord nbits n = some i ↔ decodeCode (tableCode nbits n) = .ok i := by
  unfold decodeTableWord
  cases decodeCode (tableCode nbits n) <;> simp [Except.toOption]

end Sys2Proof
end

