-- ==== Sys2Proof/Laws/State.lean ====
section
/-! SUPPORT. One lemma per field per update of State, all by rfl, so that no later proof unfolds a record update. -/

namespace Sys2Proof.Machine

/-! ## `emit e` -/

@[simp] theorem State.emit_lowByte (e : Event) (s : State) : (s.emit e).lowByte = s.lowByte := rfl
@[simp] theorem State.emit_highByte (e : Event) (s : State) : (s.emit e).highByte = s.highByte := rfl
@[simp] theorem State.emit_sample (e : Event) (s : State) : (s.emit e).sample = s.sample := rfl
@[simp] theorem State.emit_diagLow (e : Event) (s : State) : (s.emit e).diagLow = s.diagLow := rfl
@[simp] theorem State.emit_diagHigh (e : Event) (s : State) : (s.emit e).diagHigh = s.diagHigh := rfl
@[simp] theorem State.emit_upc (e : Event) (s : State) : (s.emit e).upc = s.upc := rfl
@[simp] theorem State.emit_sampleValid (e : Event) (s : State) : (s.emit e).sampleValid = s.sampleValid := rfl
@[simp] theorem State.emit_diagValid (e : Event) (s : State) : (s.emit e).diagValid = s.diagValid := rfl
@[simp] theorem State.emit_err (e : Event) (s : State) : (s.emit e).err = s.err := rfl
@[simp] theorem State.emit_errLine (e : Event) (s : State) : (s.emit e).errLine = s.errLine := rfl
@[simp] theorem State.emit_out (e : Event) (s : State) : (s.emit e).out = s.out := rfl
@[simp] theorem State.emit_waitCnt (e : Event) (s : State) : (s.emit e).waitCnt = s.waitCnt := rfl
@[simp] theorem State.emit_waiting (e : Event) (s : State) : (s.emit e).waiting = s.waiting := rfl
@[simp] theorem State.emit_pollCnt (e : Event) (s : State) : (s.emit e).pollCnt = s.pollCnt := rfl
@[simp] theorem State.emit_aborting (e : Event) (s : State) : (s.emit e).aborting = s.aborting := rfl
@[simp] theorem State.emit_cmdLat (e : Event) (s : State) : (s.emit e).cmdLat = s.cmdLat := rfl
@[simp] theorem State.emit_cfg (e : Event) (s : State) : (s.emit e).cfg = s.cfg := rfl
@[simp] theorem State.emit_rom (e : Event) (s : State) : (s.emit e).rom = s.rom := rfl
@[simp] theorem State.emit_pins (e : Event) (s : State) : (s.emit e).pins = s.pins := rfl
@[simp] theorem State.emit_report (e : Event) (s : State) : (s.emit e).report = s.report := rfl
@[simp] theorem State.emit_transcript (e : Event) (s : State) : (s.emit e).transcript = s.transcript ++ [e] := rfl
@[simp] theorem State.emit_agenda (e : Event) (s : State) : (s.emit e).agenda = s.agenda := rfl
@[simp] theorem State.emit_turnNo (e : Event) (s : State) : (s.emit e).turnNo = s.turnNo := rfl
@[simp] theorem State.emit_freeNo (e : Event) (s : State) : (s.emit e).freeNo = s.freeNo := rfl

/-! ## `emit Report(k, v)` -/

@[simp] theorem State.emitReport_lowByte (k : ReportLabel) (v : Half) (s : State) : (s.emitReport k v).lowByte = s.lowByte := rfl
@[simp] theorem State.emitReport_highByte (k : ReportLabel) (v : Half) (s : State) : (s.emitReport k v).highByte = s.highByte := rfl
@[simp] theorem State.emitReport_sample (k : ReportLabel) (v : Half) (s : State) : (s.emitReport k v).sample = s.sample := rfl
@[simp] theorem State.emitReport_diagLow (k : ReportLabel) (v : Half) (s : State) : (s.emitReport k v).diagLow = s.diagLow := rfl
@[simp] theorem State.emitReport_diagHigh (k : ReportLabel) (v : Half) (s : State) : (s.emitReport k v).diagHigh = s.diagHigh := rfl
@[simp] theorem State.emitReport_upc (k : ReportLabel) (v : Half) (s : State) : (s.emitReport k v).upc = s.upc := rfl
@[simp] theorem State.emitReport_sampleValid (k : ReportLabel) (v : Half) (s : State) : (s.emitReport k v).sampleValid = s.sampleValid := rfl
@[simp] theorem State.emitReport_diagValid (k : ReportLabel) (v : Half) (s : State) : (s.emitReport k v).diagValid = s.diagValid := rfl
@[simp] theorem State.emitReport_err (k : ReportLabel) (v : Half) (s : State) : (s.emitReport k v).err = s.err := rfl
@[simp] theorem State.emitReport_errLine (k : ReportLabel) (v : Half) (s : State) : (s.emitReport k v).errLine = s.errLine := rfl
@[simp] theorem State.emitReport_out (k : ReportLabel) (v : Half) (s : State) : (s.emitReport k v).out = s.out := rfl
@[simp] theorem State.emitReport_waitCnt (k : ReportLabel) (v : Half) (s : State) : (s.emitReport k v).waitCnt = s.waitCnt := rfl
@[simp] theorem State.emitReport_waiting (k : ReportLabel) (v : Half) (s : State) : (s.emitReport k v).waiting = s.waiting := rfl
@[simp] theorem State.emitReport_pollCnt (k : ReportLabel) (v : Half) (s : State) : (s.emitReport k v).pollCnt = s.pollCnt := rfl
@[simp] theorem State.emitReport_aborting (k : ReportLabel) (v : Half) (s : State) : (s.emitReport k v).aborting = s.aborting := rfl
@[simp] theorem State.emitReport_cmdLat (k : ReportLabel) (v : Half) (s : State) : (s.emitReport k v).cmdLat = s.cmdLat := rfl
@[simp] theorem State.emitReport_cfg (k : ReportLabel) (v : Half) (s : State) : (s.emitReport k v).cfg = s.cfg := rfl
@[simp] theorem State.emitReport_rom (k : ReportLabel) (v : Half) (s : State) : (s.emitReport k v).rom = s.rom := rfl
@[simp] theorem State.emitReport_pins (k : ReportLabel) (v : Half) (s : State) : (s.emitReport k v).pins = s.pins := rfl
@[simp] theorem State.emitReport_report (k : ReportLabel) (v : Half) (s : State) : (s.emitReport k v).report = some (k, v) := rfl
@[simp] theorem State.emitReport_transcript (k : ReportLabel) (v : Half) (s : State) : (s.emitReport k v).transcript = s.transcript ++ [.report k v] := rfl
@[simp] theorem State.emitReport_agenda (k : ReportLabel) (v : Half) (s : State) : (s.emitReport k v).agenda = s.agenda := rfl
@[simp] theorem State.emitReport_turnNo (k : ReportLabel) (v : Half) (s : State) : (s.emitReport k v).turnNo = s.turnNo := rfl
@[simp] theorem State.emitReport_freeNo (k : ReportLabel) (v : Half) (s : State) : (s.emitReport k v).freeNo = s.freeNo := rfl

/-! ## `upc <- a` -/

@[simp] theorem State.goto_lowByte (a : StepAddr) (s : State) : (s.goto a).lowByte = s.lowByte := rfl
@[simp] theorem State.goto_highByte (a : StepAddr) (s : State) : (s.goto a).highByte = s.highByte := rfl
@[simp] theorem State.goto_sample (a : StepAddr) (s : State) : (s.goto a).sample = s.sample := rfl
@[simp] theorem State.goto_diagLow (a : StepAddr) (s : State) : (s.goto a).diagLow = s.diagLow := rfl
@[simp] theorem State.goto_diagHigh (a : StepAddr) (s : State) : (s.goto a).diagHigh = s.diagHigh := rfl
@[simp] theorem State.goto_upc (a : StepAddr) (s : State) : (s.goto a).upc = a := rfl
@[simp] theorem State.goto_sampleValid (a : StepAddr) (s : State) : (s.goto a).sampleValid = s.sampleValid := rfl
@[simp] theorem State.goto_diagValid (a : StepAddr) (s : State) : (s.goto a).diagValid = s.diagValid := rfl
@[simp] theorem State.goto_err (a : StepAddr) (s : State) : (s.goto a).err = s.err := rfl
@[simp] theorem State.goto_errLine (a : StepAddr) (s : State) : (s.goto a).errLine = s.errLine := rfl
@[simp] theorem State.goto_out (a : StepAddr) (s : State) : (s.goto a).out = s.out := rfl
@[simp] theorem State.goto_waitCnt (a : StepAddr) (s : State) : (s.goto a).waitCnt = s.waitCnt := rfl
@[simp] theorem State.goto_waiting (a : StepAddr) (s : State) : (s.goto a).waiting = s.waiting := rfl
@[simp] theorem State.goto_pollCnt (a : StepAddr) (s : State) : (s.goto a).pollCnt = s.pollCnt := rfl
@[simp] theorem State.goto_aborting (a : StepAddr) (s : State) : (s.goto a).aborting = s.aborting := rfl
@[simp] theorem State.goto_cmdLat (a : StepAddr) (s : State) : (s.goto a).cmdLat = s.cmdLat := rfl
@[simp] theorem State.goto_cfg (a : StepAddr) (s : State) : (s.goto a).cfg = s.cfg := rfl
@[simp] theorem State.goto_rom (a : StepAddr) (s : State) : (s.goto a).rom = s.rom := rfl
@[simp] theorem State.goto_pins (a : StepAddr) (s : State) : (s.goto a).pins = s.pins := rfl
@[simp] theorem State.goto_report (a : StepAddr) (s : State) : (s.goto a).report = s.report := rfl
@[simp] theorem State.goto_transcript (a : StepAddr) (s : State) : (s.goto a).transcript = s.transcript := rfl
@[simp] theorem State.goto_agenda (a : StepAddr) (s : State) : (s.goto a).agenda = s.agenda := rfl
@[simp] theorem State.goto_turnNo (a : StepAddr) (s : State) : (s.goto a).turnNo = s.turnNo := rfl
@[simp] theorem State.goto_freeNo (a : StepAddr) (s : State) : (s.goto a).freeNo = s.freeNo := rfl

/-! ## `upc <- upc + 1` -/

@[simp] theorem State.advance_lowByte (s : State) : (s.advance).lowByte = s.lowByte := rfl
@[simp] theorem State.advance_highByte (s : State) : (s.advance).highByte = s.highByte := rfl
@[simp] theorem State.advance_sample (s : State) : (s.advance).sample = s.sample := rfl
@[simp] theorem State.advance_diagLow (s : State) : (s.advance).diagLow = s.diagLow := rfl
@[simp] theorem State.advance_diagHigh (s : State) : (s.advance).diagHigh = s.diagHigh := rfl
@[simp] theorem State.advance_upc (s : State) : (s.advance).upc = s.upc + 1#6 := rfl
@[simp] theorem State.advance_sampleValid (s : State) : (s.advance).sampleValid = s.sampleValid := rfl
@[simp] theorem State.advance_diagValid (s : State) : (s.advance).diagValid = s.diagValid := rfl
@[simp] theorem State.advance_err (s : State) : (s.advance).err = s.err := rfl
@[simp] theorem State.advance_errLine (s : State) : (s.advance).errLine = s.errLine := rfl
@[simp] theorem State.advance_out (s : State) : (s.advance).out = s.out := rfl
@[simp] theorem State.advance_waitCnt (s : State) : (s.advance).waitCnt = s.waitCnt := rfl
@[simp] theorem State.advance_waiting (s : State) : (s.advance).waiting = s.waiting := rfl
@[simp] theorem State.advance_pollCnt (s : State) : (s.advance).pollCnt = s.pollCnt := rfl
@[simp] theorem State.advance_aborting (s : State) : (s.advance).aborting = s.aborting := rfl
@[simp] theorem State.advance_cmdLat (s : State) : (s.advance).cmdLat = s.cmdLat := rfl
@[simp] theorem State.advance_cfg (s : State) : (s.advance).cfg = s.cfg := rfl
@[simp] theorem State.advance_rom (s : State) : (s.advance).rom = s.rom := rfl
@[simp] theorem State.advance_pins (s : State) : (s.advance).pins = s.pins := rfl
@[simp] theorem State.advance_report (s : State) : (s.advance).report = s.report := rfl
@[simp] theorem State.advance_transcript (s : State) : (s.advance).transcript = s.transcript := rfl
@[simp] theorem State.advance_agenda (s : State) : (s.advance).agenda = s.agenda := rfl
@[simp] theorem State.advance_turnNo (s : State) : (s.advance).turnNo = s.turnNo := rfl
@[simp] theorem State.advance_freeNo (s : State) : (s.advance).freeNo = s.freeNo := rfl

/-! ## `raise E(l)` -/

@[simp] theorem State.raise_lowByte (e : ErrKind) (l : Line) (s : State) : (s.raise e l).lowByte = s.lowByte := rfl
@[simp] theorem State.raise_highByte (e : ErrKind) (l : Line) (s : State) : (s.raise e l).highByte = s.highByte := rfl
@[simp] theorem State.raise_sample (e : ErrKind) (l : Line) (s : State) : (s.raise e l).sample = s.sample := rfl
@[simp] theorem State.raise_diagLow (e : ErrKind) (l : Line) (s : State) : (s.raise e l).diagLow = s.diagLow := rfl
@[simp] theorem State.raise_diagHigh (e : ErrKind) (l : Line) (s : State) : (s.raise e l).diagHigh = s.diagHigh := rfl
@[simp] theorem State.raise_upc (e : ErrKind) (l : Line) (s : State) : (s.raise e l).upc = 0x1F#6 := rfl
@[simp] theorem State.raise_sampleValid (e : ErrKind) (l : Line) (s : State) : (s.raise e l).sampleValid = s.sampleValid := rfl
@[simp] theorem State.raise_diagValid (e : ErrKind) (l : Line) (s : State) : (s.raise e l).diagValid = s.diagValid := rfl
@[simp] theorem State.raise_err (e : ErrKind) (l : Line) (s : State) : (s.raise e l).err = e := rfl
@[simp] theorem State.raise_errLine (e : ErrKind) (l : Line) (s : State) : (s.raise e l).errLine = l.id := rfl
@[simp] theorem State.raise_out (e : ErrKind) (l : Line) (s : State) : (s.raise e l).out = s.out := rfl
@[simp] theorem State.raise_waitCnt (e : ErrKind) (l : Line) (s : State) : (s.raise e l).waitCnt = 0#32 := rfl
@[simp] theorem State.raise_waiting (e : ErrKind) (l : Line) (s : State) : (s.raise e l).waiting = false := rfl
@[simp] theorem State.raise_pollCnt (e : ErrKind) (l : Line) (s : State) : (s.raise e l).pollCnt = s.pollCnt := rfl
@[simp] theorem State.raise_aborting (e : ErrKind) (l : Line) (s : State) : (s.raise e l).aborting = true := rfl
@[simp] theorem State.raise_cmdLat (e : ErrKind) (l : Line) (s : State) : (s.raise e l).cmdLat = s.cmdLat := rfl
@[simp] theorem State.raise_cfg (e : ErrKind) (l : Line) (s : State) : (s.raise e l).cfg = s.cfg := rfl
@[simp] theorem State.raise_rom (e : ErrKind) (l : Line) (s : State) : (s.raise e l).rom = s.rom := rfl
@[simp] theorem State.raise_pins (e : ErrKind) (l : Line) (s : State) : (s.raise e l).pins = s.pins := rfl
@[simp] theorem State.raise_report (e : ErrKind) (l : Line) (s : State) : (s.raise e l).report = s.report := rfl
@[simp] theorem State.raise_transcript (e : ErrKind) (l : Line) (s : State) : (s.raise e l).transcript = s.transcript := rfl
@[simp] theorem State.raise_agenda (e : ErrKind) (l : Line) (s : State) : (s.raise e l).agenda = s.agenda := rfl
@[simp] theorem State.raise_turnNo (e : ErrKind) (l : Line) (s : State) : (s.raise e l).turnNo = s.turnNo := rfl
@[simp] theorem State.raise_freeNo (e : ErrKind) (l : Line) (s : State) : (s.raise e l).freeNo = s.freeNo := rfl

/-! ## the return from the abort routine -/

@[simp] theorem State.endAbort_lowByte (s : State) : (s.endAbort).lowByte = s.lowByte := rfl
@[simp] theorem State.endAbort_highByte (s : State) : (s.endAbort).highByte = s.highByte := rfl
@[simp] theorem State.endAbort_sample (s : State) : (s.endAbort).sample = s.sample := rfl
@[simp] theorem State.endAbort_diagLow (s : State) : (s.endAbort).diagLow = s.diagLow := rfl
@[simp] theorem State.endAbort_diagHigh (s : State) : (s.endAbort).diagHigh = s.diagHigh := rfl
@[simp] theorem State.endAbort_upc (s : State) : (s.endAbort).upc = if s.cmdLat = 0b01#2 then 0x00#6 else 0x01#6 := rfl
@[simp] theorem State.endAbort_sampleValid (s : State) : (s.endAbort).sampleValid = s.sampleValid := rfl
@[simp] theorem State.endAbort_diagValid (s : State) : (s.endAbort).diagValid = s.diagValid := rfl
@[simp] theorem State.endAbort_err (s : State) : (s.endAbort).err = s.err := rfl
@[simp] theorem State.endAbort_errLine (s : State) : (s.endAbort).errLine = s.errLine := rfl
@[simp] theorem State.endAbort_out (s : State) : (s.endAbort).out = s.out := rfl
@[simp] theorem State.endAbort_waitCnt (s : State) : (s.endAbort).waitCnt = s.waitCnt := rfl
@[simp] theorem State.endAbort_waiting (s : State) : (s.endAbort).waiting = s.waiting := rfl
@[simp] theorem State.endAbort_pollCnt (s : State) : (s.endAbort).pollCnt = s.pollCnt := rfl
@[simp] theorem State.endAbort_aborting (s : State) : (s.endAbort).aborting = false := rfl
@[simp] theorem State.endAbort_cmdLat (s : State) : (s.endAbort).cmdLat = s.cmdLat := rfl
@[simp] theorem State.endAbort_cfg (s : State) : (s.endAbort).cfg = s.cfg := rfl
@[simp] theorem State.endAbort_rom (s : State) : (s.endAbort).rom = s.rom := rfl
@[simp] theorem State.endAbort_pins (s : State) : (s.endAbort).pins = s.pins := rfl
@[simp] theorem State.endAbort_report (s : State) : (s.endAbort).report = some (.error, errorValue s.err s.errLine) := rfl
@[simp] theorem State.endAbort_transcript (s : State) : (s.endAbort).transcript = s.transcript ++ [.report .error (errorValue s.err s.errLine)] := rfl
@[simp] theorem State.endAbort_agenda (s : State) : (s.endAbort).agenda = s.agenda := rfl
@[simp] theorem State.endAbort_turnNo (s : State) : (s.endAbort).turnNo = s.turnNo := rfl
@[simp] theorem State.endAbort_freeNo (s : State) : (s.endAbort).freeNo = s.freeNo := rfl

/-! ## a single-bit read -/

@[simp] theorem State.recordRead_lowByte (l : Line) (s : State) : (s.recordRead l).lowByte = s.lowByte := rfl
@[simp] theorem State.recordRead_highByte (l : Line) (s : State) : (s.recordRead l).highByte = s.highByte := rfl
@[simp] theorem State.recordRead_sample (l : Line) (s : State) : (s.recordRead l).sample = s.sample := rfl
@[simp] theorem State.recordRead_diagLow (l : Line) (s : State) : (s.recordRead l).diagLow = s.diagLow := rfl
@[simp] theorem State.recordRead_diagHigh (l : Line) (s : State) : (s.recordRead l).diagHigh = s.diagHigh := rfl
@[simp] theorem State.recordRead_upc (l : Line) (s : State) : (s.recordRead l).upc = s.upc := rfl
@[simp] theorem State.recordRead_sampleValid (l : Line) (s : State) : (s.recordRead l).sampleValid = s.sampleValid := rfl
@[simp] theorem State.recordRead_diagValid (l : Line) (s : State) : (s.recordRead l).diagValid = s.diagValid := rfl
@[simp] theorem State.recordRead_err (l : Line) (s : State) : (s.recordRead l).err = s.err := rfl
@[simp] theorem State.recordRead_errLine (l : Line) (s : State) : (s.recordRead l).errLine = s.errLine := rfl
@[simp] theorem State.recordRead_out (l : Line) (s : State) : (s.recordRead l).out = s.out := rfl
@[simp] theorem State.recordRead_waitCnt (l : Line) (s : State) : (s.recordRead l).waitCnt = s.waitCnt := rfl
@[simp] theorem State.recordRead_waiting (l : Line) (s : State) : (s.recordRead l).waiting = s.waiting := rfl
@[simp] theorem State.recordRead_pollCnt (l : Line) (s : State) : (s.recordRead l).pollCnt = s.pollCnt := rfl
@[simp] theorem State.recordRead_aborting (l : Line) (s : State) : (s.recordRead l).aborting = s.aborting := rfl
@[simp] theorem State.recordRead_cmdLat (l : Line) (s : State) : (s.recordRead l).cmdLat = s.cmdLat := rfl
@[simp] theorem State.recordRead_cfg (l : Line) (s : State) : (s.recordRead l).cfg = s.cfg := rfl
@[simp] theorem State.recordRead_rom (l : Line) (s : State) : (s.recordRead l).rom = s.rom := rfl
@[simp] theorem State.recordRead_pins (l : Line) (s : State) : (s.recordRead l).pins = s.pins := rfl
@[simp] theorem State.recordRead_report (l : Line) (s : State) : (s.recordRead l).report = s.report := rfl
@[simp] theorem State.recordRead_transcript (l : Line) (s : State) : (s.recordRead l).transcript = s.transcript ++ [.readBit l (s.levelOf l)] := rfl
@[simp] theorem State.recordRead_agenda (l : Line) (s : State) : (s.recordRead l).agenda = s.agenda := rfl
@[simp] theorem State.recordRead_turnNo (l : Line) (s : State) : (s.recordRead l).turnNo = s.turnNo := rfl
@[simp] theorem State.recordRead_freeNo (l : Line) (s : State) : (s.recordRead l).freeNo = s.freeNo + freeLevelsUsed l := rfl

/-! ## `poll_cnt <- poll_cnt + 1` -/

@[simp] theorem State.countPoll_lowByte (s : State) : (s.countPoll).lowByte = s.lowByte := rfl
@[simp] theorem State.countPoll_highByte (s : State) : (s.countPoll).highByte = s.highByte := rfl
@[simp] theorem State.countPoll_sample (s : State) : (s.countPoll).sample = s.sample := rfl
@[simp] theorem State.countPoll_diagLow (s : State) : (s.countPoll).diagLow = s.diagLow := rfl
@[simp] theorem State.countPoll_diagHigh (s : State) : (s.countPoll).diagHigh = s.diagHigh := rfl
@[simp] theorem State.countPoll_upc (s : State) : (s.countPoll).upc = s.upc := rfl
@[simp] theorem State.countPoll_sampleValid (s : State) : (s.countPoll).sampleValid = s.sampleValid := rfl
@[simp] theorem State.countPoll_diagValid (s : State) : (s.countPoll).diagValid = s.diagValid := rfl
@[simp] theorem State.countPoll_err (s : State) : (s.countPoll).err = s.err := rfl
@[simp] theorem State.countPoll_errLine (s : State) : (s.countPoll).errLine = s.errLine := rfl
@[simp] theorem State.countPoll_out (s : State) : (s.countPoll).out = s.out := rfl
@[simp] theorem State.countPoll_waitCnt (s : State) : (s.countPoll).waitCnt = s.waitCnt := rfl
@[simp] theorem State.countPoll_waiting (s : State) : (s.countPoll).waiting = s.waiting := rfl
@[simp] theorem State.countPoll_pollCnt (s : State) : (s.countPoll).pollCnt = s.pollCnt + 1#32 := rfl
@[simp] theorem State.countPoll_aborting (s : State) : (s.countPoll).aborting = s.aborting := rfl
@[simp] theorem State.countPoll_cmdLat (s : State) : (s.countPoll).cmdLat = s.cmdLat := rfl
@[simp] theorem State.countPoll_cfg (s : State) : (s.countPoll).cfg = s.cfg := rfl
@[simp] theorem State.countPoll_rom (s : State) : (s.countPoll).rom = s.rom := rfl
@[simp] theorem State.countPoll_pins (s : State) : (s.countPoll).pins = s.pins := rfl
@[simp] theorem State.countPoll_report (s : State) : (s.countPoll).report = s.report := rfl
@[simp] theorem State.countPoll_transcript (s : State) : (s.countPoll).transcript = s.transcript := rfl
@[simp] theorem State.countPoll_agenda (s : State) : (s.countPoll).agenda = s.agenda := rfl
@[simp] theorem State.countPoll_turnNo (s : State) : (s.countPoll).turnNo = s.turnNo := rfl
@[simp] theorem State.countPoll_freeNo (s : State) : (s.countPoll).freeNo = s.freeNo := rfl

/-! ## the two bus reads -/

@[simp] theorem State.recordBuses_lowByte (s : State) : (s.recordBuses).lowByte = s.lowByte := rfl
@[simp] theorem State.recordBuses_highByte (s : State) : (s.recordBuses).highByte = s.highByte := rfl
@[simp] theorem State.recordBuses_sample (s : State) : (s.recordBuses).sample = s.sample := rfl
@[simp] theorem State.recordBuses_diagLow (s : State) : (s.recordBuses).diagLow = s.diagLow := rfl
@[simp] theorem State.recordBuses_diagHigh (s : State) : (s.recordBuses).diagHigh = s.diagHigh := rfl
@[simp] theorem State.recordBuses_upc (s : State) : (s.recordBuses).upc = s.upc := rfl
@[simp] theorem State.recordBuses_sampleValid (s : State) : (s.recordBuses).sampleValid = s.sampleValid := rfl
@[simp] theorem State.recordBuses_diagValid (s : State) : (s.recordBuses).diagValid = s.diagValid := rfl
@[simp] theorem State.recordBuses_err (s : State) : (s.recordBuses).err = s.err := rfl
@[simp] theorem State.recordBuses_errLine (s : State) : (s.recordBuses).errLine = s.errLine := rfl
@[simp] theorem State.recordBuses_out (s : State) : (s.recordBuses).out = s.out := rfl
@[simp] theorem State.recordBuses_waitCnt (s : State) : (s.recordBuses).waitCnt = s.waitCnt := rfl
@[simp] theorem State.recordBuses_waiting (s : State) : (s.recordBuses).waiting = s.waiting := rfl
@[simp] theorem State.recordBuses_pollCnt (s : State) : (s.recordBuses).pollCnt = s.pollCnt := rfl
@[simp] theorem State.recordBuses_aborting (s : State) : (s.recordBuses).aborting = s.aborting := rfl
@[simp] theorem State.recordBuses_cmdLat (s : State) : (s.recordBuses).cmdLat = s.cmdLat := rfl
@[simp] theorem State.recordBuses_cfg (s : State) : (s.recordBuses).cfg = s.cfg := rfl
@[simp] theorem State.recordBuses_rom (s : State) : (s.recordBuses).rom = s.rom := rfl
@[simp] theorem State.recordBuses_pins (s : State) : (s.recordBuses).pins = s.pins := rfl
@[simp] theorem State.recordBuses_report (s : State) : (s.recordBuses).report = s.report := rfl
@[simp] theorem State.recordBuses_transcript (s : State) : (s.recordBuses).transcript = s.transcript ++ [.readByte .dataLow s.pins.dataLow] ++ [.readByte .dataHigh s.pins.dataHigh] := rfl
@[simp] theorem State.recordBuses_agenda (s : State) : (s.recordBuses).agenda = s.agenda := rfl
@[simp] theorem State.recordBuses_turnNo (s : State) : (s.recordBuses).turnNo = s.turnNo := rfl
@[simp] theorem State.recordBuses_freeNo (s : State) : (s.recordBuses).freeNo = s.freeNo := rfl

/-! ## the end of a wait -/

@[simp] theorem State.endWait_lowByte (b : Bool) (s : State) : (s.endWait b).lowByte = s.lowByte := rfl
@[simp] theorem State.endWait_highByte (b : Bool) (s : State) : (s.endWait b).highByte = s.highByte := rfl
@[simp] theorem State.endWait_sample (b : Bool) (s : State) : (s.endWait b).sample = s.sample := rfl
@[simp] theorem State.endWait_diagLow (b : Bool) (s : State) : (s.endWait b).diagLow = s.diagLow := rfl
@[simp] theorem State.endWait_diagHigh (b : Bool) (s : State) : (s.endWait b).diagHigh = s.diagHigh := rfl
@[simp] theorem State.endWait_upc (b : Bool) (s : State) : (s.endWait b).upc = s.afterWait b := rfl
@[simp] theorem State.endWait_sampleValid (b : Bool) (s : State) : (s.endWait b).sampleValid = s.sampleValid := rfl
@[simp] theorem State.endWait_diagValid (b : Bool) (s : State) : (s.endWait b).diagValid = s.diagValid := rfl
@[simp] theorem State.endWait_err (b : Bool) (s : State) : (s.endWait b).err = s.err := rfl
@[simp] theorem State.endWait_errLine (b : Bool) (s : State) : (s.endWait b).errLine = s.errLine := rfl
@[simp] theorem State.endWait_out (b : Bool) (s : State) : (s.endWait b).out = s.out := rfl
@[simp] theorem State.endWait_waitCnt (b : Bool) (s : State) : (s.endWait b).waitCnt = s.waitCnt := rfl
@[simp] theorem State.endWait_waiting (b : Bool) (s : State) : (s.endWait b).waiting = false := rfl
@[simp] theorem State.endWait_pollCnt (b : Bool) (s : State) : (s.endWait b).pollCnt = s.pollCnt := rfl
@[simp] theorem State.endWait_aborting (b : Bool) (s : State) : (s.endWait b).aborting = s.aborting := rfl
@[simp] theorem State.endWait_cmdLat (b : Bool) (s : State) : (s.endWait b).cmdLat = s.cmdLat := rfl
@[simp] theorem State.endWait_cfg (b : Bool) (s : State) : (s.endWait b).cfg = s.cfg := rfl
@[simp] theorem State.endWait_rom (b : Bool) (s : State) : (s.endWait b).rom = s.rom := rfl
@[simp] theorem State.endWait_pins (b : Bool) (s : State) : (s.endWait b).pins = s.pins := rfl
@[simp] theorem State.endWait_report (b : Bool) (s : State) : (s.endWait b).report = s.report := rfl
@[simp] theorem State.endWait_transcript (b : Bool) (s : State) : (s.endWait b).transcript = s.transcript := rfl
@[simp] theorem State.endWait_agenda (b : Bool) (s : State) : (s.endWait b).agenda = s.agenda := rfl
@[simp] theorem State.endWait_turnNo (b : Bool) (s : State) : (s.endWait b).turnNo = s.turnNo := rfl
@[simp] theorem State.endWait_freeNo (b : Bool) (s : State) : (s.endWait b).freeNo = s.freeNo := rfl

/-! ## a consumed command code -/

@[simp] theorem State.latchCommand_lowByte (c : CmdCode) (s : State) : (s.latchCommand c).lowByte = s.lowByte := rfl
@[simp] theorem State.latchCommand_highByte (c : CmdCode) (s : State) : (s.latchCommand c).highByte = s.highByte := rfl
@[simp] theorem State.latchCommand_sample (c : CmdCode) (s : State) : (s.latchCommand c).sample = s.sample := rfl
@[simp] theorem State.latchCommand_diagLow (c : CmdCode) (s : State) : (s.latchCommand c).diagLow = s.diagLow := rfl
@[simp] theorem State.latchCommand_diagHigh (c : CmdCode) (s : State) : (s.latchCommand c).diagHigh = s.diagHigh := rfl
@[simp] theorem State.latchCommand_upc (c : CmdCode) (s : State) : (s.latchCommand c).upc = s.upc := rfl
@[simp] theorem State.latchCommand_sampleValid (c : CmdCode) (s : State) : (s.latchCommand c).sampleValid = s.sampleValid := rfl
@[simp] theorem State.latchCommand_diagValid (c : CmdCode) (s : State) : (s.latchCommand c).diagValid = s.diagValid := rfl
@[simp] theorem State.latchCommand_err (c : CmdCode) (s : State) : (s.latchCommand c).err = s.err := rfl
@[simp] theorem State.latchCommand_errLine (c : CmdCode) (s : State) : (s.latchCommand c).errLine = s.errLine := rfl
@[simp] theorem State.latchCommand_out (c : CmdCode) (s : State) : (s.latchCommand c).out = s.out := rfl
@[simp] theorem State.latchCommand_waitCnt (c : CmdCode) (s : State) : (s.latchCommand c).waitCnt = s.waitCnt := rfl
@[simp] theorem State.latchCommand_waiting (c : CmdCode) (s : State) : (s.latchCommand c).waiting = s.waiting := rfl
@[simp] theorem State.latchCommand_pollCnt (c : CmdCode) (s : State) : (s.latchCommand c).pollCnt = s.pollCnt := rfl
@[simp] theorem State.latchCommand_aborting (c : CmdCode) (s : State) : (s.latchCommand c).aborting = s.aborting := rfl
@[simp] theorem State.latchCommand_cmdLat (c : CmdCode) (s : State) : (s.latchCommand c).cmdLat = c := rfl
@[simp] theorem State.latchCommand_cfg (c : CmdCode) (s : State) : (s.latchCommand c).cfg = s.cfg := rfl
@[simp] theorem State.latchCommand_rom (c : CmdCode) (s : State) : (s.latchCommand c).rom = s.rom := rfl
@[simp] theorem State.latchCommand_pins (c : CmdCode) (s : State) : (s.latchCommand c).pins = s.pins := rfl
@[simp] theorem State.latchCommand_report (c : CmdCode) (s : State) : (s.latchCommand c).report = s.report := rfl
@[simp] theorem State.latchCommand_transcript (c : CmdCode) (s : State) : (s.latchCommand c).transcript = s.transcript ++ [.cmd c] := rfl
@[simp] theorem State.latchCommand_agenda (c : CmdCode) (s : State) : (s.latchCommand c).agenda = s.agenda := rfl
@[simp] theorem State.latchCommand_turnNo (c : CmdCode) (s : State) : (s.latchCommand c).turnNo = s.turnNo := rfl
@[simp] theorem State.latchCommand_freeNo (c : CmdCode) (s : State) : (s.latchCommand c).freeNo = s.freeNo := rfl

/-! ## accepting `CMD_RESET` -/

@[simp] theorem State.acceptReset_lowByte (s : State) : (s.acceptReset).lowByte = s.lowByte := rfl
@[simp] theorem State.acceptReset_highByte (s : State) : (s.acceptReset).highByte = s.highByte := rfl
@[simp] theorem State.acceptReset_sample (s : State) : (s.acceptReset).sample = s.sample := rfl
@[simp] theorem State.acceptReset_diagLow (s : State) : (s.acceptReset).diagLow = s.diagLow := rfl
@[simp] theorem State.acceptReset_diagHigh (s : State) : (s.acceptReset).diagHigh = s.diagHigh := rfl
@[simp] theorem State.acceptReset_upc (s : State) : (s.acceptReset).upc = 0x02#6 := rfl
@[simp] theorem State.acceptReset_sampleValid (s : State) : (s.acceptReset).sampleValid = false := rfl
@[simp] theorem State.acceptReset_diagValid (s : State) : (s.acceptReset).diagValid = false := rfl
@[simp] theorem State.acceptReset_err (s : State) : (s.acceptReset).err = .none := rfl
@[simp] theorem State.acceptReset_errLine (s : State) : (s.acceptReset).errLine = 0#3 := rfl
@[simp] theorem State.acceptReset_out (s : State) : (s.acceptReset).out = s.out := rfl
@[simp] theorem State.acceptReset_waitCnt (s : State) : (s.acceptReset).waitCnt = s.waitCnt := rfl
@[simp] theorem State.acceptReset_waiting (s : State) : (s.acceptReset).waiting = s.waiting := rfl
@[simp] theorem State.acceptReset_pollCnt (s : State) : (s.acceptReset).pollCnt = s.pollCnt := rfl
@[simp] theorem State.acceptReset_aborting (s : State) : (s.acceptReset).aborting = s.aborting := rfl
@[simp] theorem State.acceptReset_cmdLat (s : State) : (s.acceptReset).cmdLat = s.cmdLat := rfl
@[simp] theorem State.acceptReset_cfg (s : State) : (s.acceptReset).cfg = s.cfg := rfl
@[simp] theorem State.acceptReset_rom (s : State) : (s.acceptReset).rom = s.rom := rfl
@[simp] theorem State.acceptReset_pins (s : State) : (s.acceptReset).pins = s.pins := rfl
@[simp] theorem State.acceptReset_report (s : State) : (s.acceptReset).report = s.report := rfl
@[simp] theorem State.acceptReset_transcript (s : State) : (s.acceptReset).transcript = s.transcript := rfl
@[simp] theorem State.acceptReset_agenda (s : State) : (s.acceptReset).agenda = s.agenda := rfl
@[simp] theorem State.acceptReset_turnNo (s : State) : (s.acceptReset).turnNo = s.turnNo := rfl
@[simp] theorem State.acceptReset_freeNo (s : State) : (s.acceptReset).freeNo = s.freeNo := rfl

/-! ## accepting `CMD_TRIGGER_AND_READ` -/

@[simp] theorem State.acceptTrigger_lowByte (s : State) : (s.acceptTrigger).lowByte = s.lowByte := rfl
@[simp] theorem State.acceptTrigger_highByte (s : State) : (s.acceptTrigger).highByte = s.highByte := rfl
@[simp] theorem State.acceptTrigger_sample (s : State) : (s.acceptTrigger).sample = s.sample := rfl
@[simp] theorem State.acceptTrigger_diagLow (s : State) : (s.acceptTrigger).diagLow = s.diagLow := rfl
@[simp] theorem State.acceptTrigger_diagHigh (s : State) : (s.acceptTrigger).diagHigh = s.diagHigh := rfl
@[simp] theorem State.acceptTrigger_upc (s : State) : (s.acceptTrigger).upc = 0x0E#6 := rfl
@[simp] theorem State.acceptTrigger_sampleValid (s : State) : (s.acceptTrigger).sampleValid = false := rfl
@[simp] theorem State.acceptTrigger_diagValid (s : State) : (s.acceptTrigger).diagValid = s.diagValid := rfl
@[simp] theorem State.acceptTrigger_err (s : State) : (s.acceptTrigger).err = .none := rfl
@[simp] theorem State.acceptTrigger_errLine (s : State) : (s.acceptTrigger).errLine = 0#3 := rfl
@[simp] theorem State.acceptTrigger_out (s : State) : (s.acceptTrigger).out = s.out := rfl
@[simp] theorem State.acceptTrigger_waitCnt (s : State) : (s.acceptTrigger).waitCnt = s.waitCnt := rfl
@[simp] theorem State.acceptTrigger_waiting (s : State) : (s.acceptTrigger).waiting = s.waiting := rfl
@[simp] theorem State.acceptTrigger_pollCnt (s : State) : (s.acceptTrigger).pollCnt = 0#32 := rfl
@[simp] theorem State.acceptTrigger_aborting (s : State) : (s.acceptTrigger).aborting = s.aborting := rfl
@[simp] theorem State.acceptTrigger_cmdLat (s : State) : (s.acceptTrigger).cmdLat = s.cmdLat := rfl
@[simp] theorem State.acceptTrigger_cfg (s : State) : (s.acceptTrigger).cfg = s.cfg := rfl
@[simp] theorem State.acceptTrigger_rom (s : State) : (s.acceptTrigger).rom = s.rom := rfl
@[simp] theorem State.acceptTrigger_pins (s : State) : (s.acceptTrigger).pins = s.pins := rfl
@[simp] theorem State.acceptTrigger_report (s : State) : (s.acceptTrigger).report = s.report := rfl
@[simp] theorem State.acceptTrigger_transcript (s : State) : (s.acceptTrigger).transcript = s.transcript := rfl
@[simp] theorem State.acceptTrigger_agenda (s : State) : (s.acceptTrigger).agenda = s.agenda := rfl
@[simp] theorem State.acceptTrigger_turnNo (s : State) : (s.acceptTrigger).turnNo = s.turnNo := rfl
@[simp] theorem State.acceptTrigger_freeNo (s : State) : (s.acceptTrigger).freeNo = s.freeNo := rfl

/-! ## refusing a command -/

@[simp] theorem State.refuseCommand_lowByte (s : State) : (s.refuseCommand).lowByte = s.lowByte := rfl
@[simp] theorem State.refuseCommand_highByte (s : State) : (s.refuseCommand).highByte = s.highByte := rfl
@[simp] theorem State.refuseCommand_sample (s : State) : (s.refuseCommand).sample = s.sample := rfl
@[simp] theorem State.refuseCommand_diagLow (s : State) : (s.refuseCommand).diagLow = s.diagLow := rfl
@[simp] theorem State.refuseCommand_diagHigh (s : State) : (s.refuseCommand).diagHigh = s.diagHigh := rfl
@[simp] theorem State.refuseCommand_upc (s : State) : (s.refuseCommand).upc = s.upc := rfl
@[simp] theorem State.refuseCommand_sampleValid (s : State) : (s.refuseCommand).sampleValid = s.sampleValid := rfl
@[simp] theorem State.refuseCommand_diagValid (s : State) : (s.refuseCommand).diagValid = s.diagValid := rfl
@[simp] theorem State.refuseCommand_err (s : State) : (s.refuseCommand).err = .illegalCommand := rfl
@[simp] theorem State.refuseCommand_errLine (s : State) : (s.refuseCommand).errLine = 0#3 := rfl
@[simp] theorem State.refuseCommand_out (s : State) : (s.refuseCommand).out = s.out := rfl
@[simp] theorem State.refuseCommand_waitCnt (s : State) : (s.refuseCommand).waitCnt = s.waitCnt := rfl
@[simp] theorem State.refuseCommand_waiting (s : State) : (s.refuseCommand).waiting = s.waiting := rfl
@[simp] theorem State.refuseCommand_pollCnt (s : State) : (s.refuseCommand).pollCnt = s.pollCnt := rfl
@[simp] theorem State.refuseCommand_aborting (s : State) : (s.refuseCommand).aborting = s.aborting := rfl
@[simp] theorem State.refuseCommand_cmdLat (s : State) : (s.refuseCommand).cmdLat = s.cmdLat := rfl
@[simp] theorem State.refuseCommand_cfg (s : State) : (s.refuseCommand).cfg = s.cfg := rfl
@[simp] theorem State.refuseCommand_rom (s : State) : (s.refuseCommand).rom = s.rom := rfl
@[simp] theorem State.refuseCommand_pins (s : State) : (s.refuseCommand).pins = s.pins := rfl
@[simp] theorem State.refuseCommand_report (s : State) : (s.refuseCommand).report = some (.error, errorValue .illegalCommand 0#3) := rfl
@[simp] theorem State.refuseCommand_transcript (s : State) : (s.refuseCommand).transcript = s.transcript ++ [.report .error (errorValue .illegalCommand 0#3)] := rfl
@[simp] theorem State.refuseCommand_agenda (s : State) : (s.refuseCommand).agenda = s.agenda := rfl
@[simp] theorem State.refuseCommand_turnNo (s : State) : (s.refuseCommand).turnNo = s.turnNo := rfl
@[simp] theorem State.refuseCommand_freeNo (s : State) : (s.refuseCommand).freeNo = s.freeNo := rfl

/-! ## `HWRESET` -/

@[simp] theorem State.hwReset_lowByte (s : State) : (s.hwReset).lowByte = Config.freeByte s.freeNo := rfl
@[simp] theorem State.hwReset_highByte (s : State) : (s.hwReset).highByte = Config.freeByte (s.freeNo + 1) := rfl
@[simp] theorem State.hwReset_sample (s : State) : (s.hwReset).sample = Config.freeHalf s.freeNo := rfl
@[simp] theorem State.hwReset_diagLow (s : State) : (s.hwReset).diagLow = Config.freeByte (s.freeNo + 2) := rfl
@[simp] theorem State.hwReset_diagHigh (s : State) : (s.hwReset).diagHigh = Config.freeByte (s.freeNo + 3) := rfl
@[simp] theorem State.hwReset_upc (s : State) : (s.hwReset).upc = 0x00#6 := rfl
@[simp] theorem State.hwReset_sampleValid (s : State) : (s.hwReset).sampleValid = false := rfl
@[simp] theorem State.hwReset_diagValid (s : State) : (s.hwReset).diagValid = false := rfl
@[simp] theorem State.hwReset_err (s : State) : (s.hwReset).err = .none := rfl
@[simp] theorem State.hwReset_errLine (s : State) : (s.hwReset).errLine = 0#3 := rfl
@[simp] theorem State.hwReset_out (s : State) : (s.hwReset).out = .atReset := rfl
@[simp] theorem State.hwReset_waitCnt (s : State) : (s.hwReset).waitCnt = 0#32 := rfl
@[simp] theorem State.hwReset_waiting (s : State) : (s.hwReset).waiting = false := rfl
@[simp] theorem State.hwReset_pollCnt (s : State) : (s.hwReset).pollCnt = 0#32 := rfl
@[simp] theorem State.hwReset_aborting (s : State) : (s.hwReset).aborting = false := rfl
@[simp] theorem State.hwReset_cmdLat (s : State) : (s.hwReset).cmdLat = 0b00#2 := rfl
@[simp] theorem State.hwReset_cfg (s : State) : (s.hwReset).cfg = s.cfg := rfl
@[simp] theorem State.hwReset_rom (s : State) : (s.hwReset).rom = s.rom := rfl
@[simp] theorem State.hwReset_pins (s : State) : (s.hwReset).pins = s.pins := rfl
@[simp] theorem State.hwReset_report (s : State) : (s.hwReset).report = s.report := rfl
@[simp] theorem State.hwReset_transcript (s : State) : (s.hwReset).transcript = s.transcript := rfl
@[simp] theorem State.hwReset_agenda (s : State) : (s.hwReset).agenda = s.agenda := rfl
@[simp] theorem State.hwReset_turnNo (s : State) : (s.hwReset).turnNo = s.turnNo := rfl
@[simp] theorem State.hwReset_freeNo (s : State) : (s.hwReset).freeNo = s.freeNo + 4 := rfl

end Sys2Proof.Machine
end

