-- ==== Sys2Proof/Laws/Rom.lean ====
section
/-! SUPPORT. The laws of the step ROM: the canonical form is kept, a read after a placing, and the spec's own ROM. -/

namespace Sys2Proof.Machine

variable {c : Config} {r : Rom} {lo a a' : Nat} {b : Byte}

theorem Rom.canonicalFrom_cons {x : Nat} {y : Byte} :
    Rom.canonicalFrom c lo ((x, y) :: r) = true ↔
      lo ≤ x ∧ x < romSize ∧ y ≠ romWord c x ∧ r.canonicalFrom c (x + 1) = true := by
  simp [Rom.canonicalFrom, and_assoc]

theorem Rom.canonicalFrom_mono {lo' : Nat} (hlo : lo' ≤ lo) (h : r.canonicalFrom c lo = true) :
    r.canonicalFrom c lo' = true := by
  cases r with
  | nil => rfl
  | cons e r =>
    obtain ⟨h1, h2⟩ := Rom.canonicalFrom_cons.1 h
    exact Rom.canonicalFrom_cons.2 ⟨hlo.trans h1, h2⟩

/-- Below the first listed address nothing is listed. -/
theorem Rom.listed_eq_none (h : r.canonicalFrom c lo = true) (ha : a < lo) : r.listed a = none := by
  induction r generalizing lo with
  | nil => rfl
  | cons e r ih =>
    obtain ⟨h1, -, -, h4⟩ := Rom.canonicalFrom_cons.1 h
    have hne : e.1 ≠ a := by omega
    simpa [Rom.listed, hne] using ih h4 (by omega)

/-- Placing a word at an existing address keeps the canonical form. -/
theorem Rom.canonicalFrom_write (h : r.canonicalFrom c lo = true) (hlo : lo ≤ a) (ha : a < romSize) :
    (Rom.write c a b r).canonicalFrom c lo = true := by
  induction r generalizing lo with
  | nil =>
    by_cases hb : b = romWord c a
    · simp [Rom.write, hb, Rom.canonicalFrom]
    · simp [Rom.write, hb, Rom.canonicalFrom, hlo, ha]
  | cons e r ih =>
    obtain ⟨x, y⟩ := e
    obtain ⟨h1, h2, h3, h4⟩ := Rom.canonicalFrom_cons.1 h
    rcases Nat.lt_trichotomy a x with hax | rfl | hxa
    · by_cases hb : b = romWord c a
      · simpa [Rom.write, hax, hb] using h
      · simp only [Rom.write, hax, hb, if_true, if_false]
        exact Rom.canonicalFrom_cons.2 ⟨hlo, ha, hb, Rom.canonicalFrom_cons.2 ⟨hax, h2, h3, h4⟩⟩
    · by_cases hb : b = romWord c a
      · simpa [Rom.write, hb] using Rom.canonicalFrom_mono (by omega) h4
      · simp only [Rom.write, hb, lt_irrefl, if_true, if_false]
        exact Rom.canonicalFrom_cons.2 ⟨hlo, ha, hb, h4⟩
    · have h5 : ¬ a < x := by omega
      have h6 : a ≠ x := by omega
      simp only [Rom.write, h5, h6, if_false]
      exact Rom.canonicalFrom_cons.2 ⟨h1, h2, h3, ih h4 (by omega)⟩

/-- The spec's own ROM has the canonical form. -/
@[simp] theorem Rom.wf_nil (c : Config) : Rom.wf c [] = true := rfl

/-- Every operation on the ROM keeps the canonical form: placing a word is the only one that changes it. -/
theorem Rom.wf_write (h : r.wf c = true) (ha : a < romSize) : (Rom.write c a b r).wf c = true :=
  Rom.canonicalFrom_write h (Nat.zero_le a) ha

theorem Rom.word_write_same_from (h : r.canonicalFrom c lo = true) :
    (Rom.write c a b r).word c a = b := by
  induction r generalizing lo with
  | nil => by_cases hb : b = romWord c a <;> simp [Rom.write, hb, Rom.word, Rom.listed]
  | cons e r ih =>
    obtain ⟨x, y⟩ := e
    obtain ⟨h1, h2, h3, h4⟩ := Rom.canonicalFrom_cons.1 h
    rcases Nat.lt_trichotomy a x with hax | rfl | hxa
    · by_cases hb : b = romWord c a
      · have hl : Rom.listed r a = none := Rom.listed_eq_none h4 (by omega)
        have hne : x ≠ a := by omega
        simp [Rom.write, hax, hb, Rom.word, Rom.listed, hne, hl]
      · simp [Rom.write, hax, hb, Rom.word, Rom.listed]
    · by_cases hb : b = romWord c a
      · have hl : Rom.listed r a = none := Rom.listed_eq_none h4 (by omega)
        simp [Rom.write, hb, Rom.word, hl]
      · simp [Rom.write, hb, Rom.word, Rom.listed]
    · have h5 : ¬ a < x := by omega
      have h6 : a ≠ x := by omega
      have h7 : x ≠ a := by omega
      simpa [Rom.write, h5, h6, Rom.word, Rom.listed, h7] using ih h4

/-- Reading where a word was placed gives that word. -/
theorem Rom.word_write_same (h : r.wf c = true) : (Rom.write c a b r).word c a = b :=
  Rom.word_write_same_from h

/-- Placing a word leaves every other word as it was. -/
theorem Rom.word_write_other (hne : a' ≠ a) : (Rom.write c a b r).word c a' = r.word c a' := by
  have hne' : a ≠ a' := hne.symm
  induction r with
  | nil => by_cases hb : b = romWord c a <;> simp [Rom.write, hb, Rom.word, Rom.listed, hne']
  | cons e r ih =>
    obtain ⟨x, y⟩ := e
    rcases Nat.lt_trichotomy a x with hax | rfl | hxa
    · by_cases hb : b = romWord c a <;> simp [Rom.write, hax, hb, Rom.word, Rom.listed, hne']
    · by_cases hb : b = romWord c a <;> simp [Rom.write, hb, Rom.word, Rom.listed, hne']
    · have h5 : ¬ a < x := by omega
      have h6 : a ≠ x := by omega
      by_cases hx : x = a'
      · subst hx
        simp [Rom.write, h5, h6, Rom.word, Rom.listed]
      · simpa [Rom.write, h5, h6, Rom.word, Rom.listed, hx] using ih

/-- The spec's ROM reads as the image everywhere. -/
@[simp] theorem Rom.word_nil (c : Config) (a : Nat) : Rom.word [] c a = romWord c a := rfl

/-- Reading an existing address gives its word. -/
theorem Rom.read_of_lt (ha : a < romSize) : r.read c a = .ok (r.word c a) := by simp [Rom.read, ha]

/-- Every `upc` value is a ROM address, so a fetch gives the word at `upc`. -/
theorem State.fetch_eq (s : State) : s.fetch = .ok (s.rom.word s.cfg s.upc.toNat) :=
  Rom.read_of_lt s.upc.isLt

/-- The image depends on three mode bits only, so a fact about it is a finite check over them. -/
theorem romWord_standard (c : Config) :
    romWord c =
      romWord { Config.standard with
        diagReadback := c.diagReadback
        companionAssertLevel := c.companionAssertLevel
        companionDeassertLevel := c.companionDeassertLevel } := rfl

/-- Beyond the 37 used words stands the filler (`30_encoding.md` R93). -/
theorem romWord_filler (c : Config) (h : 0x25 ≤ a) : romWord c a = romFiller := by
  have hlen : (romImage c).length = 0x25 := by
    simp [romImage, romQuiescent, romReset, romAcquisition, romAbort]
  simp [romWord, hlen, h]

end Sys2Proof.Machine
end

