-- ==== Sys2Proof/Laws/Step.lean ====
section
/-! SUPPORT. What a step can do, said once: how a turn begins, what each turn does, and how the Sequencer's turn
runs the fetched word. -/

namespace Sys2Proof.Machine

/-! ## Beginning a turn -/

/-- Beginning a turn changes the Report port and the model's schedule only. -/
theorem State.beginTurn_eq (s : State) :
    s.beginTurn =
      { s with
        report := none
        agenda := s.agenda.tail
        turnNo := if s.agenda = [] then s.turnNo + 1 else s.turnNo } := by
  rcases h : s.agenda with _ | ⟨a, r⟩ <;> simp [State.beginTurn, h]

@[simp] theorem State.beginTurn_report (s : State) : s.beginTurn.report = none := by rw [State.beginTurn_eq]
@[simp] theorem State.beginTurn_agenda (s : State) : s.beginTurn.agenda = s.agenda.tail := by rw [State.beginTurn_eq]
@[simp] theorem State.beginTurn_turnNo (s : State) :
    s.beginTurn.turnNo = if s.agenda = [] then s.turnNo + 1 else s.turnNo := by rw [State.beginTurn_eq]
@[simp] theorem State.beginTurn_lowByte (s : State) : s.beginTurn.lowByte = s.lowByte := by rw [State.beginTurn_eq]
@[simp] theorem State.beginTurn_highByte (s : State) : s.beginTurn.highByte = s.highByte := by rw [State.beginTurn_eq]
@[simp] theorem State.beginTurn_sample (s : State) : s.beginTurn.sample = s.sample := by rw [State.beginTurn_eq]
@[simp] theorem State.beginTurn_diagLow (s : State) : s.beginTurn.diagLow = s.diagLow := by rw [State.beginTurn_eq]
@[simp] theorem State.beginTurn_diagHigh (s : State) : s.beginTurn.diagHigh = s.diagHigh := by rw [State.beginTurn_eq]
@[simp] theorem State.beginTurn_upc (s : State) : s.beginTurn.upc = s.upc := by rw [State.beginTurn_eq]
@[simp] theorem State.beginTurn_sampleValid (s : State) : s.beginTurn.sampleValid = s.sampleValid := by rw [State.beginTurn_eq]
@[simp] theorem State.beginTurn_diagValid (s : State) : s.beginTurn.diagValid = s.diagValid := by rw [State.beginTurn_eq]
@[simp] theorem State.beginTurn_err (s : State) : s.beginTurn.err = s.err := by rw [State.beginTurn_eq]
@[simp] theorem State.beginTurn_errLine (s : State) : s.beginTurn.errLine = s.errLine := by rw [State.beginTurn_eq]
@[simp] theorem State.beginTurn_out (s : State) : s.beginTurn.out = s.out := by rw [State.beginTurn_eq]
@[simp] theorem State.beginTurn_waitCnt (s : State) : s.beginTurn.waitCnt = s.waitCnt := by rw [State.beginTurn_eq]
@[simp] theorem State.beginTurn_waiting (s : State) : s.beginTurn.waiting = s.waiting := by rw [State.beginTurn_eq]
@[simp] theorem State.beginTurn_pollCnt (s : State) : s.beginTurn.pollCnt = s.pollCnt := by rw [State.beginTurn_eq]
@[simp] theorem State.beginTurn_aborting (s : State) : s.beginTurn.aborting = s.aborting := by rw [State.beginTurn_eq]
@[simp] theorem State.beginTurn_cmdLat (s : State) : s.beginTurn.cmdLat = s.cmdLat := by rw [State.beginTurn_eq]
@[simp] theorem State.beginTurn_cfg (s : State) : s.beginTurn.cfg = s.cfg := by rw [State.beginTurn_eq]
@[simp] theorem State.beginTurn_rom (s : State) : s.beginTurn.rom = s.rom := by rw [State.beginTurn_eq]
@[simp] theorem State.beginTurn_pins (s : State) : s.beginTurn.pins = s.pins := by rw [State.beginTurn_eq]
@[simp] theorem State.beginTurn_transcript (s : State) : s.beginTurn.transcript = s.transcript := by rw [State.beginTurn_eq]
@[simp] theorem State.beginTurn_freeNo (s : State) : s.beginTurn.freeNo = s.freeNo := by rw [State.beginTurn_eq]
@[simp] theorem State.beginTurn_held (s : State) : s.beginTurn.held = s.held := by simp [State.held]
@[simp] theorem State.beginTurn_fetch (s : State) : s.beginTurn.fetch = s.fetch := by simp [State.fetch, State.romByte]

/-! ## The step -/

/-- A step answers only under a legal configuration. -/
theorem legal_of_step {s t : State} (h : step s = .next t) : s.cfg.Legal := by
  intro hl
  simp [step, takeTurn, hl] at h

/-- The step of a legal configuration, by whose turn it is. -/
theorem step_of_turn {s : State} {t : Turn} (hl : s.cfg.Legal) (ht : s.nextTurn = t) :
    step s = if t = .sequencer then sequencerTurn s.beginTurn else .next (s.beginTurn.outsideTurn t) := by
  cases t <;> simp [step, takeTurn, ht, hl]

/-- The Sequencer's turn, not in reset and not held, runs the fetched word. -/
theorem sequencerTurn_of_free {s : State} (hr : s.pins.hwreset = false) (hh : s.held = false) :
    sequencerTurn s = runFetched s := by
  simp [sequencerTurn, hr, hh]

/-- Running a fetched word that decodes is executing the instruction. -/
theorem runFetched_of_decode {s : State} {i : Instr} (h : decode (s.rom.word s.cfg s.upc.toNat) = .ok i) :
    runFetched s = exec i s := by
  simp [runFetched, State.fetch_eq, h]

/-- All that a step can be: one of an outside agent's turns, or a Sequencer turn that is in reset, held, or the
execution of the instruction that the word at `upc` decodes to. -/
theorem step_cases {s t : State} (h : step s = .next t) :
    (s.nextTurn ≠ .sequencer ∧ t = s.beginTurn.outsideTurn s.nextTurn) ∨
    (s.nextTurn = .sequencer ∧ s.pins.hwreset = true ∧ t = s.beginTurn.hwReset) ∨
    (s.nextTurn = .sequencer ∧ s.pins.hwreset = false ∧ s.held = true ∧ t = s.beginTurn) ∨
    (s.nextTurn = .sequencer ∧ s.pins.hwreset = false ∧ s.held = false ∧
      ∃ i, decode (s.rom.word s.cfg s.upc.toNat) = .ok i ∧ exec i s.beginTurn = .next t) := by
  rw [step_of_turn (legal_of_step h) rfl] at h
  by_cases ht : s.nextTurn = .sequencer
  · rw [if_pos ht] at h
    by_cases hr : s.pins.hwreset = true
    · simp only [sequencerTurn, State.beginTurn_pins, hr, if_true, Host.Outcome.next.injEq] at h
      exact .inr (.inl ⟨ht, hr, h.symm⟩)
    · replace hr : s.pins.hwreset = false := by simpa using hr
      by_cases hh : s.held = true
      · simp only [sequencerTurn, State.beginTurn_pins, hr, State.beginTurn_held, hh, if_true, Bool.false_eq_true,
          if_false, Host.Outcome.next.injEq] at h
        exact .inr (.inr (.inl ⟨ht, hr, hh, h.symm⟩))
      · replace hh : s.held = false := by simpa using hh
        rw [sequencerTurn_of_free (by simpa using hr) (by simpa using hh)] at h
        simp only [runFetched, State.fetch_eq, State.beginTurn_rom, State.beginTurn_cfg, State.beginTurn_upc] at h
        refine .inr (.inr (.inr ⟨ht, hr, hh, ?_⟩))
        split at h
        · exact ⟨_, by assumption, h⟩
        · simp at h
  · rw [if_neg ht, Host.Outcome.next.injEq] at h
    exact .inl ⟨ht, h.symm⟩

end Sys2Proof.Machine
end

