-- ==== Sys2Proof/Laws/Ops.lean ====
section
/-! SUPPORT. What each shared operation can do, said once: operands, flags and the operations of Machine/Ops.lean. -/

namespace Sys2Proof.Machine

variable {s t : State} {o o' : Outputs} {l m : Line} {v : Bool} {c : Config}

/-! ## Operands -/

@[simp] theorem dirOf_dataLow (c : Config) : dirOf c .dataLow = c.dir.dataLow := rfl
@[simp] theorem dirOf_dataHigh (c : Config) : dirOf c .dataHigh = c.dir.dataHigh := rfl
@[simp] theorem dirOf_busy (c : Config) : dirOf c .busy = c.dir.busy := rfl

/-- Writing an output register gives that line the level and leaves every other line as it was. -/
theorem Outputs.write_spec (h : o.write l v = some o') :
    o'.level l = some v ∧ ∀ k, k ≠ l → o'.level k = o.level k := by
  cases l <;> simp only [Outputs.write, Option.some.injEq, reduceCtorEq] at h <;> subst h <;>
    exact ⟨rfl, fun k hk => by cases k <;> first | rfl | exact absurd rfl hk⟩

/-- Lines 0 to 4 have an output register. -/
theorem Outputs.write_of_id_le (h : l.id.toNat ≤ 4) : ∃ o', o.write l v = some o' := by
  cases l <;> first | exact ⟨_, rfl⟩ | exact absurd h (by decide)

/-- Lines 5 to 7 have none. -/
theorem Outputs.write_of_id_ge (h : 5 ≤ l.id.toNat) : o.write l v = none := by
  cases l <;> first | rfl | exact absurd h (by decide)

/-- The levels of the five output registers are all that `Outputs` holds. -/
theorem Outputs.ext_level (h : ∀ k, o.level k = o'.level k) : o = o' := by
  have h0 := h .reset
  have h1 := h .convst
  have h2 := h .companion
  have h3 := h .chipSelect
  have h4 := h .readStrobe
  cases o
  cases o'
  simp_all [Outputs.level]

/-- The time constants, by list index; a reserved index has none. -/
theorem timeConstant_eq (c : Config) (k : BitVec 3) :
    timeConstant c k =
      [c.tReset, c.tConvstSettle, c.tBusyPoll, c.tCsSettle, c.tRdPulse, c.tRdRelease][k.toNat]? := by
  have key : k = 0#3 ∨ k = 1#3 ∨ k = 2#3 ∨ k = 3#3 ∨ k = 4#3 ∨ k = 5#3 ∨ k = 6#3 ∨ k = 7#3 := by
    have all : ∀ j : BitVec 3, j = 0#3 ∨ j = 1#3 ∨ j = 2#3 ∨ j = 3#3 ∨ j = 4#3 ∨ j = 5#3 ∨ j = 6#3 ∨ j = 7#3 := by
      decide
    exact all k
  rcases key with rfl | rfl | rfl | rfl | rfl | rfl | rfl | rfl <;> rfl

/-- POLL can read exactly the single-bit lines that are configured `In`. -/
theorem pollable_eq_true : pollable c l = true ↔ dirOf c l = .input ∧ l ≠ .dataLow ∧ l ≠ .dataHigh := by
  unfold pollable
  generalize dirOf c l = d
  cases l <;> cases d <;> decide

/-- POLL cannot read the others. -/
theorem pollable_eq_false : pollable c l = false ↔ dirOf c l ≠ .input ∨ l = .dataLow ∨ l = .dataHigh := by
  unfold pollable
  generalize dirOf c l = d
  cases l <;> cases d <;> decide

@[simp] theorem State.levelOf_busy (s : State) : s.levelOf .busy = s.pins.busy := rfl

/-- No bus is misconfigured exactly when both are inputs. -/
theorem misconfiguredBus_eq_none :
    misconfiguredBus c = none ↔ c.dir.dataLow = .input ∧ c.dir.dataHigh = .input := by
  unfold misconfiguredBus
  cases h1 : c.dir.dataLow <;> cases h2 : c.dir.dataHigh <;> simp [h1, h2]

/-- The misconfigured bus is the first that is no input. -/
theorem misconfiguredBus_eq_some :
    misconfiguredBus c = some l ↔
      (c.dir.dataLow ≠ .input ∧ l = .dataLow) ∨
      (c.dir.dataLow = .input ∧ c.dir.dataHigh ≠ .input ∧ l = .dataHigh) := by
  unfold misconfiguredBus
  cases h1 : c.dir.dataLow <;> cases h2 : c.dir.dataHigh <;> simp [h1, h2, eq_comm]

/-! ## Flags -/

/-- The sequencer is held while a wait is owed ticks. -/
theorem State.held_eq_true : s.held = true ↔ s.waiting = true ∧ s.waitCnt ≠ 0#32 := by simp [State.held]

/-- `cmd_ready` is 1 at the two quiescent addresses. -/
theorem State.cmdReady_eq_true : s.cmdReady = true ↔ s.upc = 0x00#6 ∨ s.upc = 0x01#6 := by
  simp [State.cmdReady]

/-! ## Errors -/

/-- All that taking an error does. -/
theorem State.raise_eq (e : ErrKind) (l : Line) (s : State) :
    s.raise e l =
      { s with
        err := e, errLine := l.id, aborting := true, waiting := false, waitCnt := 0#32, upc := 0x1F#6 } := rfl

/-- All that the return from the abort routine does. -/
theorem State.endAbort_eq (s : State) :
    s.endAbort =
      { s with
        transcript := s.transcript ++ [.report .error (errorValue s.err s.errLine)]
        report := some (.error, errorValue s.err s.errLine)
        aborting := false
        upc := if s.cmdLat = 0b01#2 then 0x00#6 else 0x01#6 } := rfl

/-! ## Lines -/

/-- Driving a line records it and writes its register. -/
theorem State.driveLine_eq_some :
    s.driveLine l v = some t ↔
      ∃ o, s.out.write l v = some o ∧ t = { s with out := o, transcript := s.transcript ++ [.set l v] } := by
  simp only [State.driveLine, Option.map_eq_some_iff, State.emit]
  exact exists_congr fun o => and_congr_right fun _ => eq_comm

/-- Reading a line records it; only the model's count of free values moves. -/
theorem State.recordRead_eq (l : Line) (s : State) :
    s.recordRead l =
      { s with
        transcript := s.transcript ++ [.readBit l (s.levelOf l)]
        freeNo := s.freeNo + freeLevelsUsed l } := rfl

/-- Reading both buses records them, `DATA_LOW` first. -/
theorem State.recordBuses_eq (s : State) :
    s.recordBuses =
      { s with
        transcript := s.transcript ++
          [.readByte .dataLow s.pins.dataLow, .readByte .dataHigh s.pins.dataHigh] } := by
  simp [State.recordBuses, State.emit]

/-! ## Waits and ticks -/

/-- The begin step of a wait: done at once for 0 units, else the ticks are owed. -/
theorem State.beginWait_eq (k : BitVec 3) (n : U32) (b : Bool) (s : State) :
    s.beginWait k n b =
      if n = 0#32 then { s with transcript := s.transcript ++ [.wait k n], upc := s.afterWait b }
      else { s with transcript := s.transcript ++ [.wait k n], waitCnt := n, waiting := true } := rfl

/-- A tick lowers the count of a wait that is owed ticks. -/
theorem State.tick_eq (s : State) :
    s.tick = if s.held then { s with waitCnt := s.waitCnt - 1#32 } else s := rfl

/-! ## Commands -/

/-- All that presenting a command can do: nothing where the sequencer is not ready, else it is accepted or refused. -/
theorem State.presentCommand_cases (k : CmdCode) (s : State) :
    (s.cmdReady = false ∧ s.presentCommand k = s) ∨
    (s.cmdReady = true ∧ k = 0b01#2 ∧
      s.presentCommand k =
        { s with
          cmdLat := k, transcript := s.transcript ++ [.cmd k]
          err := .none, errLine := 0#3, sampleValid := false, diagValid := false, upc := 0x02#6 }) ∨
    (s.upc = 0x01#6 ∧ k = 0b10#2 ∧
      s.presentCommand k =
        { s with
          cmdLat := k, transcript := s.transcript ++ [.cmd k]
          err := .none, errLine := 0#3, sampleValid := false, pollCnt := 0#32, upc := 0x0E#6 }) ∨
    (s.cmdReady = true ∧ k ≠ 0b01#2 ∧ ¬(k = 0b10#2 ∧ s.upc = 0x01#6) ∧
      s.presentCommand k =
        { s with
          cmdLat := k, transcript := s.transcript ++ [.cmd k, .report .error 0x0003#16]
          report := some (.error, 0x0003#16), err := .illegalCommand, errLine := 0#3 }) := by
  by_cases hr : s.cmdReady = true
  · by_cases h1 : k = 0b01#2
    · exact .inr (.inl ⟨hr, h1, by simp [State.presentCommand, State.consumeCommand, hr, h1, State.latchCommand,
        State.acceptReset, State.emit]⟩)
    · by_cases h2 : k = 0b10#2 ∧ s.upc = 0x01#6
      · exact .inr (.inr (.inl ⟨h2.2, h2.1, by
          simp [State.presentCommand, State.consumeCommand, hr, h2, State.latchCommand, State.acceptTrigger,
            State.emit]⟩))
      · refine .inr (.inr (.inr ⟨hr, h1, h2, ?_⟩))
        have h3 : (k = 0b10#2 && s.upc = 0x01#6) = false := by simpa using h2
        simp [State.presentCommand, State.consumeCommand, hr, h1, h3, State.latchCommand, State.refuseCommand,
          State.emitReport, State.emit, errorValue, ErrKind.code]
  · exact .inl ⟨by simpa using hr, by simp [State.presentCommand, hr]⟩

/-! ## The outside agents -/

/-- All that an outside agent's turn can do: the reset values, or a tick, or new levels on the input ports. -/
theorem State.outsideTurn_cases (u : Turn) (s : State) :
    (∃ p, s.outsideTurn u = ({ s with pins := p } : State).hwReset ∧
      (s.pins.hwreset = true ∨ u = .hwreset true)) ∨
    (s.pins.hwreset = false ∧ u = .tick ∧ s.outsideTurn u = s.tick) ∨
    (∃ p, s.outsideTurn u = { s with pins := p } ∧ u ≠ .tick) := by
  by_cases hr : s.pins.hwreset = true
  · cases u with
    | sequencer => exact .inr (.inr ⟨s.pins, rfl, by simp⟩)
    | tick => exact .inl ⟨s.pins, by simp [State.outsideTurn, hr], .inl hr⟩
    | device b lo hi => exact .inl ⟨_, by simp [State.outsideTurn, State.underReset, hr]; rfl, .inl hr⟩
    | host k n => exact .inl ⟨_, by simp [State.outsideTurn, State.underReset, hr]; rfl, .inl hr⟩
    | hwreset level => exact .inl ⟨_, by simp [State.outsideTurn, hr]; rfl, .inl hr⟩
  · replace hr : s.pins.hwreset = false := by simpa using hr
    cases u with
    | sequencer => exact .inr (.inr ⟨s.pins, rfl, by simp⟩)
    | tick => exact .inr (.inl ⟨hr, rfl, by simp [State.outsideTurn, hr]⟩)
    | device b lo hi => exact .inr (.inr ⟨_, by simp [State.outsideTurn, State.underReset, hr]; rfl, by simp⟩)
    | host k n => exact .inr (.inr ⟨_, by simp [State.outsideTurn, State.underReset, hr]; rfl, by simp⟩)
    | hwreset level =>
      cases level
      · exact .inr (.inr ⟨_, by simp [State.outsideTurn, State.underReset, hr]; rfl, by simp⟩)
      · exact .inl ⟨_, by simp [State.outsideTurn, State.underReset, hr]; rfl, .inr rfl⟩

end Sys2Proof.Machine
end

