-- ==== Sys2Proof/Laws/Exec.lean ====
section
/-! SUPPORT. What each micro-operation can do, said once: if it answers a next state, that state is one of these. -/

namespace Sys2Proof.Machine

variable {s t : State} {l : Line} {v b : Bool} {k : BitVec 3}

/-- `SET`: skipped while aborting, or an error, or its line is driven. -/
theorem execSet_cases (h : execSet l v s = .next t) :
    (dirOf s.cfg l = .input ∧ s.aborting = true ∧ t = { s with upc := s.upc + 1#6 }) ∨
    (dirOf s.cfg l = .input ∧ s.aborting = false ∧ t = s.raise .misconfiguredLine l) ∨
    (dirOf s.cfg l = .output ∧
      ∃ o, s.out.write l v = some o ∧
        t = { s with out := o, transcript := s.transcript ++ [.set l v], upc := s.upc + 1#6 }) := by
  rcases hd : dirOf s.cfg l
  · rcases hw : s.out.write l v with _ | o
    · simp [execSet, hd, State.driveLine, hw] at h
    · have hl := State.driveLine_eq_some.2 ⟨o, hw, rfl⟩
      simp only [execSet, hd, hl, Host.Outcome.next.injEq] at h
      exact .inr (.inr ⟨rfl, o, rfl, h.symm⟩)
  · rcases ha : s.aborting
    · simp only [execSet, hd, ha, Bool.false_eq_true, if_false, Host.Outcome.next.injEq] at h
      exact .inr (.inl ⟨rfl, rfl, h.symm⟩)
    · simp only [execSet, hd, ha, if_true, Host.Outcome.next.injEq] at h
      exact .inl ⟨rfl, rfl, by simp [← h, State.advance, State.goto, ha]⟩

/-- `POLL`: a direction error, or the exit, or the timeout, or one more round. -/
theorem execPoll_cases (h : execPoll l v s = .next t) :
    (pollable s.cfg l = false ∧ t = s.raise .misconfiguredLine l) ∨
    (pollable s.cfg l = true ∧
      ((s.levelOf l = v ∧ t = { s with
          transcript := s.transcript ++ [.readBit l (s.levelOf l)]
          freeNo := s.freeNo + freeLevelsUsed l, pollCnt := s.pollCnt + 1#32, upc := s.upc + 2#6 }) ∨
        (s.levelOf l ≠ v ∧ s.pollCnt + 1#32 = s.cfg.maxBusyPolls ∧ t = { s with
          transcript := s.transcript ++ [.readBit l (s.levelOf l)]
          freeNo := s.freeNo + freeLevelsUsed l, pollCnt := s.pollCnt + 1#32
          err := .timeout, errLine := l.id, aborting := true, waiting := false, waitCnt := 0#32, upc := 0x1F#6 }) ∨
        (s.levelOf l ≠ v ∧ s.pollCnt + 1#32 ≠ s.cfg.maxBusyPolls ∧ t = { s with
          transcript := s.transcript ++ [.readBit l (s.levelOf l)]
          freeNo := s.freeNo + freeLevelsUsed l, pollCnt := s.pollCnt + 1#32, upc := s.upc + 1#6 }))) := by
  rcases hd : pollable s.cfg l
  · simp only [execPoll, hd, Bool.false_eq_true, if_false, Host.Outcome.next.injEq] at h
    exact .inl ⟨rfl, h.symm⟩
  · by_cases h1 : s.levelOf l = v
    · simp only [execPoll, hd, h1, if_true, Host.Outcome.next.injEq] at h
      subst h1
      exact .inr ⟨rfl, .inl ⟨rfl, h.symm⟩⟩
    · by_cases h2 : s.pollCnt + 1#32 = s.cfg.maxBusyPolls
      · simp only [execPoll, hd, h1, State.countPoll, State.recordRead, State.emit, h2, if_true, if_false,
          Host.Outcome.next.injEq] at h
        exact .inr ⟨rfl, .inr (.inl ⟨h1, h2, by rw [← h, h2]; rfl⟩)⟩
      · simp only [execPoll, hd, h1, State.countPoll, State.recordRead, State.emit, h2, if_true, if_false,
          Host.Outcome.next.injEq] at h
        exact .inr ⟨rfl, .inr (.inr ⟨h1, h2, h.symm⟩)⟩

/-- `CAPTURE 0`: a direction error, or both buses into the sample pair. -/
theorem execCapture0_cases (h : execCapture0 s = .next t) :
    (∃ m, misconfiguredBus s.cfg = some m ∧ t = s.raise .misconfiguredLine m) ∨
    (misconfiguredBus s.cfg = none ∧ t = { s with
      lowByte := s.pins.dataLow, highByte := s.pins.dataHigh
      transcript := s.transcript ++ [.readByte .dataLow s.pins.dataLow, .readByte .dataHigh s.pins.dataHigh]
      upc := s.upc + 1#6 }) := by
  rcases hb : misconfiguredBus s.cfg with _ | m
  · simp only [execCapture0, hb, State.recordBuses_eq, Host.Outcome.next.injEq] at h
    exact .inr ⟨rfl, h.symm⟩
  · simp only [execCapture0, hb, Host.Outcome.next.injEq] at h
    exact .inl ⟨m, rfl, h.symm⟩

/-- `CAPTURE 1`: a direction error, or both buses into the diagnostic pair and the INITIAL report. -/
theorem execCapture1_cases (h : execCapture1 s = .next t) :
    (∃ m, misconfiguredBus s.cfg = some m ∧ t = s.raise .misconfiguredLine m) ∨
    (misconfiguredBus s.cfg = none ∧ t = { s with
      diagLow := s.pins.dataLow, diagHigh := s.pins.dataHigh, diagValid := true
      transcript := s.transcript ++ [.readByte .dataLow s.pins.dataLow, .readByte .dataHigh s.pins.dataHigh,
        .report .initial (combine s.cfg.combineLegacyMul s.pins.dataLow s.pins.dataHigh)]
      report := some (.initial, combine s.cfg.combineLegacyMul s.pins.dataLow s.pins.dataHigh)
      upc := s.upc + 1#6 }) := by
  rcases hb : misconfiguredBus s.cfg with _ | m
  · simp only [execCapture1, hb, State.recordBuses_eq, Host.Outcome.next.injEq] at h
    exact .inr ⟨rfl, by simp [← h, State.emitReport, State.emit, State.advance, State.goto]⟩
  · simp only [execCapture1, hb, Host.Outcome.next.injEq] at h
    exact .inl ⟨m, rfl, h.symm⟩

/-- `WAIT`: the end step, the held step, the step of a wait of 0 units, the begin step. -/
theorem execWait_cases (h : execWait k b s = .next t) :
    ∃ n, timeConstant s.cfg k = some n ∧
      ((s.waiting = true ∧ s.waitCnt = 0#32 ∧ t = { s with waiting := false, upc := s.afterWait b }) ∨
        (s.waiting = true ∧ s.waitCnt ≠ 0#32 ∧ t = s) ∨
        (s.waiting = false ∧ n = 0#32 ∧
          t = { s with transcript := s.transcript ++ [.wait k n], upc := s.afterWait b }) ∨
        (s.waiting = false ∧ n ≠ 0#32 ∧
          t = { s with transcript := s.transcript ++ [.wait k n], waitCnt := n, waiting := true })) := by
  rcases hk : timeConstant s.cfg k with _ | n
  · simp [execWait, hk] at h
  · refine ⟨n, rfl, ?_⟩
    by_cases hw : s.waiting = true
    · by_cases hc : s.waitCnt = 0#32
      · simp only [execWait, hk, hw, hc, if_true, Host.Outcome.next.injEq] at h
        exact .inl ⟨hw, hc, h.symm⟩
      · simp only [execWait, hk, hw, hc, if_true, if_false, Host.Outcome.next.injEq] at h
        exact .inr (.inl ⟨hw, hc, h.symm⟩)
    · by_cases hn : n = 0#32
      · simp only [execWait, hk, hw, State.beginWait_eq, hn, if_true, Bool.false_eq_true, if_false,
          Host.Outcome.next.injEq] at h
        exact .inr (.inr (.inl ⟨by simpa using hw, hn, by simp [← h, hn, hw]⟩))
      · simp only [execWait, hk, hw, State.beginWait_eq, hn, Bool.false_eq_true, if_false,
          Host.Outcome.next.injEq] at h
        exact .inr (.inr (.inr ⟨by simpa using hw, hn, h.symm⟩))

/-- `WCMD`: rests, or a command is presented. -/
theorem execWcmd_cases (h : execWcmd s = .next t) :
    (s.pins.cmdValid = false ∧ t = s) ∨ (s.pins.cmdValid = true ∧ t = s.presentCommand s.pins.cmd) := by
  rcases hv : s.pins.cmdValid
  · simp only [execWcmd, hv, Bool.false_eq_true, if_false, Host.Outcome.next.injEq] at h
    exact .inl ⟨rfl, h.symm⟩
  · simp only [execWcmd, hv, if_true, Host.Outcome.next.injEq] at h
    exact .inr ⟨rfl, h.symm⟩

end Sys2Proof.Machine
end

