-- ==== Sys2Proof/Laws/PerInstr.lean ====
section
/-! SUPPORT. Statements made once per instruction. `EncodingFitsTheTable`: every well-formed instruction's word has the
fixed bits of its row of `opcode_table.json`. -/

namespace Sys2Proof.Laws

/-- The fixed bits of one row of `opcode_table.json`: in a word of the row, the bits of `mask` are those of `fixed`. -/
structure TableRow where
  mnemonic : String
  kindIsCommand : Bool
  mask : Nat
  fixed : Nat
  deriving DecidableEq, Repr

/-- The row of each instruction, written from `opcode_table.json` (not from the encoder). -/
def tableRow : Instr → TableRow
  | .nop => ⟨"NOP", false, 0xFF, 0x00⟩
  | .set _ _ => ⟨"SET", false, 0xE2, 0x20⟩
  | .wait _ _ => ⟨"WAIT", false, 0xE8, 0x40⟩
  | .poll _ _ => ⟨"POLL", false, 0xE2, 0x60⟩
  | .capture0 => ⟨"CAPTURE_0", false, 0xFF, 0x80⟩
  | .capture1 => ⟨"CAPTURE_1", false, 0xFF, 0x81⟩
  | .sample => ⟨"SAMPLE", false, 0xFF, 0xA0⟩
  | .wcmd => ⟨"WCMD", false, 0xFF, 0xC0⟩
  | .ret _ => ⟨"RET", false, 0xFE, 0xE0⟩
  | .ret2 => ⟨"RET_2", false, 0xFF, 0xE2⟩
  | .cmdReset => ⟨"CMD_RESET", true, 0b11, 0b01⟩
  | .cmdTriggerAndRead => ⟨"CMD_TRIGGER_AND_READ", true, 0b11, 0b10⟩

/-- A word of either kind fits a row of the table. -/
def Fits (r : TableRow) : Code → Prop
  | .microWord w => r.kindIsCommand = false ∧ w &&& BitVec.ofNat 8 r.mask = BitVec.ofNat 8 r.fixed
  | .command c => r.kindIsCommand = true ∧ c &&& BitVec.ofNat 2 r.mask = BitVec.ofNat 2 r.fixed

/-- The encoding of a well-formed instruction fits its row. -/
def EncodingFitsTheTable.Statement (i : Instr) : Prop :=
  i.wellFormed = true → Fits (tableRow i) (encode i)

theorem EncodingFitsTheTable.nop : Statement .nop := fun _ => ⟨rfl, rfl⟩

theorem EncodingFitsTheTable.set (l : Line) (v : Bool) : Statement (.set l v) := fun _ => by
  cases l <;> cases v <;> exact ⟨rfl, rfl⟩

theorem EncodingFitsTheTable.wait (tsel : BitVec 3) (b : Bool) : Statement (.wait tsel b) := by
  have key : ∀ (k : BitVec 3) (b : Bool), k.toNat ≤ 5 →
      (0x40#8 ||| (bitByte b <<< 4) ||| k.setWidth 8) &&& 0xE8#8 = 0x40#8 := by decide
  exact fun h => ⟨rfl, key tsel b (by simpa [Instr.wellFormed] using h)⟩

theorem EncodingFitsTheTable.poll (l : Line) (v : Bool) : Statement (.poll l v) := fun _ => by
  cases l <;> cases v <;> exact ⟨rfl, rfl⟩

theorem EncodingFitsTheTable.capture0 : Statement .capture0 := fun _ => ⟨rfl, rfl⟩

theorem EncodingFitsTheTable.capture1 : Statement .capture1 := fun _ => ⟨rfl, rfl⟩

theorem EncodingFitsTheTable.sample : Statement .sample := fun _ => ⟨rfl, rfl⟩

theorem EncodingFitsTheTable.wcmd : Statement .wcmd := fun _ => ⟨rfl, rfl⟩

theorem EncodingFitsTheTable.ret (m : BitVec 1) : Statement (.ret m) := by
  have key : ∀ m : BitVec 1, (0xE0#8 ||| m.setWidth 8) &&& 0xFE#8 = 0xE0#8 := by decide
  exact fun _ => ⟨rfl, key m⟩

theorem EncodingFitsTheTable.ret2 : Statement .ret2 := fun _ => ⟨rfl, rfl⟩

theorem EncodingFitsTheTable.cmdReset : Statement .cmdReset := fun _ => ⟨rfl, rfl⟩

theorem EncodingFitsTheTable.cmdTriggerAndRead : Statement .cmdTriggerAndRead := fun _ => ⟨rfl, rfl⟩

end Sys2Proof.Laws
end

