-- ==== Sys2Proof/Tests/Slice0.lean ====
section
/-! SUPPORT. Tests. Expected values are the spec's own: the vectors of `95_test_vectors.md` (V-E, V-F, P), named in each
comment. The second part holds, for every statement with hypotheses, a witness that meets them. -/

namespace Sys2Proof.Tests

open Sys2Proof.Machine

/-! ## Helpers -/

/-- The machine after reset, with the ROM word at `a` next. -/
def startAt (a : StepAddr) : State := { State.reset with upc := a }

/-- A part of the next state, if there is one. -/
def got {α : Type} (o : Host.Outcome State Fault Refusal) (f : State → α) : Option α :=
  match o with
  | .next s => some (f s)
  | .fault _ => none
  | .refused _ => none

/-- Why an outcome is a refusal. -/
def whyRefused : Host.Outcome State Fault Refusal → Option Refusal
  | .next _ => none
  | .fault _ => none
  | .refused r => some r

/-- The command port presents a code. -/
def withCmd (c : CmdCode) (s : State) : State := { s with pins := { s.pins with cmdValid := true, cmd := c } }

/-- The Device's levels. -/
def withDevice (b : Bool) (lo hi : Byte) (s : State) : State :=
  { s with pins := { s.pins with busy := b, dataLow := lo, dataHigh := hi } }

/-- The turns to be taken. -/
def withTurns (ts : List Turn) (s : State) : State := { s with agenda := ts }

/-- The nominal configuration with one direction changed. -/
def busyDriven : Config := { Config.standard with dir := { Directions.nominal with busy := .output } }

def chipSelectInput : Config := { Config.standard with dir := { Directions.nominal with chipSelect := .input } }

def dataLowDriven : Config := { Config.standard with dir := { Directions.nominal with dataLow := .output } }

def dataHighDriven : Config := { Config.standard with dir := { Directions.nominal with dataHigh := .output } }

/-- Every wait is of 0 units, as in P6. -/
def noWaits : Config :=
  { Config.standard with
    tReset := 0, tConvstSettle := 0, tBusyPoll := 0, tCsSettle := 0, tRdPulse := 0, tRdRelease := 0 }

/-- The decoded instruction, if there is one. -/
def read? (w : Byte) : Option Instr := (decode w).toOption

/-! ## Well-formedness -/

theorem test_wellFormed_refuses_tsel6 : (Instr.wait 6 false).wellFormed = false := by decide
theorem test_wellFormed_refuses_tsel7 : (Instr.wait 7 true).wellFormed = false := by decide
theorem test_wellFormed_takes_tsel5 : (Instr.wait 5 true).wellFormed = true := by decide

/-! ## Decoding: words written out from `30_encoding.md` R84 to R89 (V-E1, V-E3) -/

theorem test_decode_nop : read? 0b000_00000 = some .nop := by decide
theorem test_decode_set_cs_1 : read? 0b001_011_0_1 = some (.set .chipSelect true) := by decide
theorem test_decode_set_data_high_0 : read? 0b001_111_0_0 = some (.set .dataHigh false) := by decide
theorem test_decode_wait_busy_poll_back : read? 0b010_1_0_010 = some (.wait 2 true) := by decide
theorem test_decode_wait_rd_release : read? 0b010_0_0_101 = some (.wait 5 false) := by decide
theorem test_decode_poll_busy_0 : read? 0b011_101_0_0 = some (.poll .busy false) := by decide
theorem test_decode_poll_reset_1 : read? 0b011_000_0_1 = some (.poll .reset true) := by decide
theorem test_decode_capture_0 : read? 0b100_0000_0 = some .capture0 := by decide
theorem test_decode_capture_1 : read? 0b100_0000_1 = some .capture1 := by decide
theorem test_decode_sample : read? 0b101_00000 = some .sample := by decide
theorem test_decode_wcmd : read? 0b110_00000 = some .wcmd := by decide
theorem test_decode_ret_0 : read? 0b111_000_00 = some (.ret 0) := by decide
theorem test_decode_ret_1 : read? 0b111_000_01 = some (.ret 1) := by decide
theorem test_decode_ret_2 : read? 0b111_000_10 = some .ret2 := by decide
theorem test_decode_cmd_reset : (decodeCmd 0b01).toOption = some .cmdReset := by decide
theorem test_decode_cmd_trigger : (decodeCmd 0b10).toOption = some .cmdTriggerAndRead := by decide

/-- V-E2: the listed illegal words. -/
theorem test_decode_illegal :
    ([0x01, 0x1F, 0x22, 0x3F, 0x46, 0x47, 0x48, 0x62, 0x82, 0x9F, 0xA1, 0xC1, 0xE3, 0xE4, 0xFF] : List Byte).all
      (fun w => (read? w).isNone) = true := by decide

/-- V-E2: the reasons. -/
theorem test_decode_illegal_reasons :
    decode 0x46 = .error .reservedTimeConstant ∧ decode 0xE3 = .error .reservedReturnMode ∧
      decode 0x22 = .error .mustBeZero := by decide

/-- V-E1: words that the encoder gives. -/
theorem test_encode :
    encode (.set .readStrobe false) = .microWord 0x30 ∧ encode (.wait 5 true) = .microWord 0x55 ∧
      encode (.poll .dataHigh true) = .microWord 0x7D ∧ encode .ret2 = .microWord 0xE2 ∧
      encode .cmdTriggerAndRead = .command 0b10 := by decide

/-- V-E5: the ROM image of the default configuration, and the three words that mode bits change. -/
theorem test_rom_image :
    romImage .standard =
      ([0xC0, 0xC0, 0x2D, 0x31, 0x24, 0x28, 0x21, 0x40, 0x20, 0x40] ++
        [0x21, 0x40, 0x81, 0xE1, 0x29, 0x25, 0x41, 0x74, 0x52, 0x24] ++
        [0x28, 0x2C, 0x43, 0x30, 0x44, 0x80, 0x31, 0x45, 0x2D, 0xA0, 0xE1] ++
        [0x31, 0x2D, 0x24, 0x28, 0x21, 0xE2] : List Byte) := by decide

theorem test_rom_mode_bits :
    romWord { Config.standard with diagReadback := false } 0x0C = 0x00 ∧
      romWord { Config.standard with companionAssertLevel := false } 0x0E = 0x28 ∧
      romWord { Config.standard with companionDeassertLevel := true } 0x14 = 0x29 ∧
      romWord .standard 0x25 = 0xE0 ∧ romWord .standard 0x3F = 0xE0 := by decide

/-! ## The host's words -/

theorem test_tableWord_set : decodeTableWord 8 0x20 = some (.set .reset false) := by decide
theorem test_tableWord_wait : decodeTableWord 8 0x55 = some (.wait 5 true) := by decide
theorem test_tableWord_commands :
    decodeTableWord 2 1 = some .cmdReset ∧ decodeTableWord 8 2 = some .cmdTriggerAndRead := by decide
theorem test_tableWord_illegal : decodeTableWord 8 0x46 = none ∧ decodeTableWord 2 3 = none := by decide
theorem test_withFetchWord_set :
    got (step (State.reset.withFetchWord 8 0x25)) (fun t => (t.upc, t.out.convst)) = some (0x01, true) := by decide
theorem test_withFetchWord_command :
    got (step (State.reset.withFetchWord 2 1)) (fun t => (t.upc, t.cmdLat)) = some (0x02, 0b01) := by decide
theorem test_withFetchWord_trigger_at_baseline :
    got (step ((startAt 0x01).withFetchWord 8 2)) (fun t => (t.upc, t.cmdLat)) = some (0x0E, 0b10) := by decide

/-! ## SET (V-F3) -/

/-- V-F3 row 1. -/
theorem test_set_drives :
    got (exec (.set .chipSelect false) (startAt 0x15)) (fun t => (t.out.chipSelect, t.upc, t.transcript)) =
      some (false, 0x16, [.set .chipSelect false]) := by decide

/-- V-F3 row 3. -/
theorem test_set_raises :
    got (exec (.set .chipSelect true) { startAt 0x02 with cfg := chipSelectInput })
        (fun t => (t.err, t.errLine, t.aborting, t.upc, t.transcript)) =
      some (.misconfiguredLine, 3, true, 0x1F, []) := by decide

/-- V-F3 row 4. -/
theorem test_set_skips_while_aborting :
    got (exec (.set .chipSelect true)
        { startAt 0x20 with cfg := chipSelectInput, aborting := true, err := .misconfiguredLine, errLine := 3 })
        (fun t => (t.err, t.errLine, t.aborting, t.upc, t.transcript)) =
      some (.misconfiguredLine, 3, true, 0x21, []) := by decide

/-! ## POLL (V-F4) -/

/-- V-F4 row 3: the exit beats the bound. -/
theorem test_poll_exit :
    got (exec (.poll .busy false) { startAt 0x11 with pollCnt := 9 })
        (fun t => (t.pollCnt, t.upc, t.err, t.transcript)) =
      some (10, 0x13, .none, [.readBit .busy false]) := by decide

/-- V-F4 row 8: no wrap. -/
theorem test_poll_timeout :
    got (exec (.poll .busy false) (withDevice true 0 0
        { startAt 0x11 with pollCnt := 0xFFFFFFFE, cfg := { Config.standard with maxBusyPolls := 0xFFFFFFFF } }))
        (fun t => (t.pollCnt, t.upc, t.err, t.errLine)) =
      some (0xFFFFFFFF, 0x1F, .timeout, 5) := by decide

/-- `30_encoding.md` R91: under the nominal directions a POLL of a data bus raises for its line (log 19). -/
theorem test_poll_bus_raises :
    got (exec (.poll .dataHigh true) (startAt 0x11)) (fun t => (t.pollCnt, t.upc, t.err, t.errLine, t.transcript)) =
      some (0, 0x1F, .misconfiguredLine, 7, []) := by decide

/-! ## CAPTURE (V-F5) -/

/-- V-F5 row 1. -/
theorem test_capture_0 :
    got (exec .capture0 (withDevice false 0x3C 0x07 (startAt 0x19)))
        (fun t => (t.lowByte, t.highByte, t.upc, t.transcript)) =
      some (0x3C, 0x07, 0x1A, [.readByte .dataLow 0x3C, .readByte .dataHigh 0x07]) := by decide

/-- V-F5 row 5: the legacy mode. -/
theorem test_capture_1 :
    got (exec .capture1 (withDevice false 0xA5 0x5A
        { startAt 0x0C with cfg := { Config.standard with combineLegacyMul := true } }))
        (fun t => (t.diagLow, t.diagHigh, t.diagValid, t.report)) =
      some (0xA5, 0x5A, true, some (.initial, 0x3A02)) := by decide

/-! ## WAIT (V-F6), NOP, SAMPLE (V-F2), WCMD (V-F1), RET -/

/-- P1, at 0x07: begin. -/
theorem test_wait_begins :
    got (exec (.wait 0 false) (startAt 0x07)) (fun t => (t.waiting, t.waitCnt, t.upc, t.transcript)) =
      some (true, 1, 0x07, [.wait 0 1]) := by decide

/-- P2, at 0x12: the end goes back. -/
theorem test_wait_ends_back :
    got (exec (.wait 2 true) { startAt 0x12 with waiting := true }) (fun t => (t.waiting, t.upc)) =
      some (false, 0x11) := by decide

/-- P6, at 0x0C. -/
theorem test_nop : got (exec .nop (startAt 0x0C)) (·.upc) = some 0x0D := by decide

/-- V-F2, the SAMPLE step. -/
theorem test_sample :
    got (exec .sample { startAt 0x1D with lowByte := 0xA5, highByte := 0x5A })
        (fun t => (t.sample, t.sampleValid, t.upc, t.report)) =
      some (0x5AA5, true, 0x1E, some (.postConversion, 0x5AA5)) := by decide

/-- V-F2, rows 2, 3, 12 and 15. -/
theorem test_combine :
    combine false 0xFF 0xFF = 0xFFFF ∧ combine true 0xFF 0xFF = 0xFE01 ∧ combine false 0x3C 0x07 = 0x073C ∧
      combine true 0x3C 0x07 = 0x01A4 ∧ combine true 0xA5 0x5A = 0x3A02 ∧ combine false 0x02 0x80 = 0x8002 := by decide

/-- V-F1 row 1. -/
theorem test_wcmd_rests : got (exec .wcmd (startAt 0x00)) (fun t => (t.upc, t.transcript)) = some (0x00, []) := by
  decide

/-- V-F1 row 10. -/
theorem test_wcmd_refuses :
    got (exec .wcmd (withCmd 0b11 { startAt 0x01 with sampleValid := true }))
        (fun t => (t.upc, t.cmdLat, t.err, t.sampleValid, t.transcript)) =
      some (0x01, 0b11, .illegalCommand, true, [.cmd 0b11, .report .error 0x0003]) := by decide

/-- V-F1 row 4. -/
theorem test_cmdReset :
    got (exec .cmdReset { startAt 0x01 with sampleValid := true, diagValid := true, pollCnt := 7 })
        (fun t => (t.upc, t.cmdLat, t.sampleValid, t.diagValid, t.pollCnt)) =
      some (0x02, 0b01, false, false, 7) := by decide

/-- V-F1 row 5. -/
theorem test_cmdTrigger_accepted :
    got (exec .cmdTriggerAndRead { startAt 0x01 with sampleValid := true, diagValid := true, pollCnt := 7 })
        (fun t => (t.upc, t.cmdLat, t.sampleValid, t.diagValid, t.pollCnt)) =
      some (0x0E, 0b10, false, true, 0) := by decide

/-- V-F1 row 6. -/
theorem test_cmdTrigger_refused :
    got (exec .cmdTriggerAndRead (startAt 0x00)) (fun t => (t.upc, t.cmdLat, t.err, t.transcript)) =
      some (0x00, 0b10, .illegalCommand, [.cmd 0b10, .report .error 0x0003]) := by decide

theorem test_ret_0 : got (exec (.ret 0) (startAt 0x25)) (·.upc) = some 0x00 := by decide
theorem test_ret_1 : got (exec (.ret 1) (startAt 0x0D)) (·.upc) = some 0x01 := by decide

/-- P3, the last row. -/
theorem test_ret_2_timeout :
    got (exec .ret2 { startAt 0x24 with aborting := true, err := .timeout, errLine := 5, cmdLat := 0b10 })
        (fun t => (t.upc, t.aborting, t.report)) =
      some (0x01, false, some (.error, 0x0501)) := by decide

/-- P4, the last row. -/
theorem test_ret_2_reset :
    got (exec .ret2 { startAt 0x24 with aborting := true, err := .misconfiguredLine, errLine := 3, cmdLat := 0b01 })
        (fun t => (t.upc, t.aborting, t.report)) =
      some (0x00, false, some (.error, 0x0302)) := by decide

/-! ## Turns -/

/-- A tick outside a wait does not count (`42_timing_ops.md` R161). -/
theorem test_tick_outside_a_wait :
    got (step (withTurns [.tick] { startAt 0x07 with waitCnt := 0 })) (fun t => (t.waitCnt, t.upc)) =
      some (0, 0x07) := by decide

/-- HWRESET in the middle of a read window (`10_state.md` R55). -/
theorem test_hwreset :
    got (step (withTurns [.hwreset true]
        { startAt 0x19 with waiting := true, waitCnt := 3
                            out := { Outputs.atReset with chipSelect := false, readStrobe := false } }))
        (fun t => (t.upc, t.waiting, t.waitCnt, t.out.chipSelect, t.out.readStrobe)) =
      some (0x00, false, 0, true, true) := by decide

/-! ## Witnesses: concrete states and operands that meet the hypotheses of the statements -/

theorem witness_DecodeOfEncode : (Instr.wait 5 true).wellFormed = true ∧ (Instr.set .dataHigh true).wellFormed = true := by
  decide

theorem witness_EncodeOfDecode :
    decodeCode (.microWord 0x55) = .ok (.wait 5 true) ∧ decodeCode (.command 0b10) = .ok .cmdTriggerAndRead := by decide

/-- A canonical ROM that lists one word. -/
theorem witness_CanonicalRoms :
    Rom.wf .standard [(0x3F, 0x00)] = true ∧ Rom.wf .standard [] = true ∧
      Rom.word [(0x3F, 0x00)] .standard 0x3F ≠ Rom.word [] .standard 0x3F := by decide

theorem witness_RomStaysCanonical :
    (startAt 0x02).rom.wf .standard = true ∧ ∃ t, step (withTurns [.sequencer] (startAt 0x02)) = .next t :=
  ⟨by decide, _, rfl⟩

theorem witness_StepRuns :
    let s := withTurns [.sequencer] (startAt 0x02)
    s.cfg.Legal ∧ s.nextTurn = .sequencer ∧ s.pins.hwreset = false ∧ s.held = false ∧
      s.fetch = .ok 0x2D ∧ decode 0x2D = .ok (.set .chipSelect true) := by decide

/-- A ROM that is not the spec's, with an illegal word at `upc`. -/
theorem witness_StepRefusesAnIllegalWord :
    let s := withTurns [.sequencer] { startAt 0x02 with rom := [(0x02, 0x46)] }
    s.cfg.Legal ∧ s.nextTurn = .sequencer ∧ s.pins.hwreset = false ∧ s.held = false ∧
      s.fetch = .ok 0x46 ∧ decode 0x46 = .error .reservedTimeConstant := by decide

theorem witness_StepRefusesZeroPollBound : { Config.standard with maxBusyPolls := 0 }.maxBusyPolls = 0 := rfl

theorem witness_SpecRomNeverStops : State.reset.rom = [] ∧ State.reset.cfg.Legal := by decide

theorem witness_PlacedInstruction :
    State.reset.cfg.Legal ∧ State.reset.rom.wf State.reset.cfg = true ∧
      decodeTableWord 8 0x31 = some (.set .readStrobe true) ∧ decodeTableWord 2 2 = some .cmdTriggerAndRead := by decide

/-- A tick in a wait that is owed one, and one outside a wait. -/
theorem witness_TickCountsDownAWait :
    let s := withTurns [.tick] { startAt 0x07 with waiting := true, waitCnt := 1 }
    s.cfg.Legal ∧ s.pins.hwreset = false ∧ s.nextTurn = .tick ∧ s.waiting = true ∧ 0 < s.waitCnt.toNat ∧
      (withTurns [.tick] (startAt 0x07)).nextTurn = .tick := by decide

theorem witness_HeldSequencer :
    let s := withTurns [.sequencer] { startAt 0x07 with waiting := true, waitCnt := 1 }
    s.cfg.Legal ∧ s.pins.hwreset = false ∧ s.nextTurn = .sequencer ∧ s.waiting = true ∧ 0 < s.waitCnt.toNat := by
  decide

theorem witness_DeviceAndHost :
    State.reset.cfg.Legal ∧ State.reset.pins.hwreset = false ∧
      (withTurns [.device true 0xFF 0x00] State.reset).nextTurn = .device true 0xFF 0x00 ∧
      (withTurns [.host true 0b11] State.reset).nextTurn = .host true 0b11 := by decide

/-- HWRESET begins, holds and is released. -/
theorem witness_HwReset :
    (withTurns [.hwreset true] (startAt 0x19)).nextTurn = .hwreset true ∧
      ({ startAt 0x19 with pins := { Pins.atReset with hwreset := true } } : State).pins.hwreset = true ∧
      (withTurns [.hwreset false] { startAt 0x19 with pins := { Pins.atReset with hwreset := true } }).cfg.Legal := by
  decide

theorem witness_StatusPorts :
    ({ startAt 0x1E with sampleValid := true } : State).sampleValid = true ∧
      ({ startAt 0x0D with diagValid := true } : State).diagValid = true := by decide

/-- Every SequencerState, every error kind, both directions, every Report label and none. -/
theorem witness_StatusPorts_codes :
    (startAt 0x00).seqState = .idle ∧ (startAt 0x0D).seqState = .resetting ∧
      (startAt 0x01).seqState = .awaitingConversion ∧ (startAt 0x1D).seqState = .reading ∧
      (startAt 0x1E).seqState = .sampleReady ∧ (startAt 0x24).seqState = .aborting ∧ State.reset.err = .none ∧
      ({ State.reset with err := .illegalCommand } : State).err = .illegalCommand ∧
      ({ State.reset with err := .timeout } : State).err = .timeout ∧
      ({ State.reset with err := .misconfiguredLine } : State).err = .misconfiguredLine ∧
      dirOf Config.standard .reset = .output ∧ dirOf Config.standard .dataHigh = .input ∧ State.reset.report = none ∧
      ({ State.reset with report := some (.initial, 1) } : State).report = some (.initial, 1) ∧
      ({ State.reset with report := some (.postConversion, 1) } : State).report = some (.postConversion, 1) ∧
      ({ State.reset with report := some (.error, 0x0501) } : State).report = some (.error, 0x0501) := by decide

/-- A line that is an input, and the highest line with an output register. -/
theorem witness_SetDrivesItsLineOrRaises :
    (startAt 0x02).aborting = false ∧ dirOf chipSelectInput .chipSelect ≠ .output ∧
      dirOf Config.standard .readStrobe = .output ∧ Line.readStrobe.id.toNat ≤ 4 ∧
      dirOf Config.standard .reset = .output ∧ Line.reset.id.toNat ≤ 4 := by decide

theorem witness_SetWhileAborting :
    ({ startAt 0x20 with aborting := true } : State).aborting = true ∧ dirOf chipSelectInput .chipSelect ≠ .output ∧
      dirOf Config.standard .readStrobe = .output ∧ Line.readStrobe.id.toNat ≤ 4 := by decide

theorem witness_SetWithoutOutputRegister :
    5 ≤ Line.busy.id.toNat ∧ dirOf busyDriven .busy = .output ∧ 5 ≤ Line.dataHigh.id.toNat ∧
      dirOf dataHighDriven .dataHigh = .output := by decide

/-- The ways of a POLL: a bus, a direction error, exit at the last allowed read, timeout at it, one more round. -/
theorem witness_Poll :
    dirOf Config.standard .dataHigh = .input ∧ dirOf busyDriven .busy ≠ .input ∧ dirOf Config.standard .busy = .input ∧
      (withDevice false 0 0 { startAt 0x11 with pollCnt := 9 }).pins.busy = false ∧
      (withDevice true 0 0 { startAt 0x11 with pollCnt := 9 }).pins.busy ≠ false ∧
      (9 : U32) + 1 = Config.standard.maxBusyPolls ∧ (8 : U32) + 1 ≠ Config.standard.maxBusyPolls := by decide

/-- Both buses inputs, the low one not, the high one not. -/
theorem witness_Capture :
    Config.standard.dir.dataLow = .input ∧ Config.standard.dir.dataHigh = .input ∧
      dataLowDriven.dir.dataLow ≠ .input ∧ dataHighDriven.dir.dataLow = .input ∧
      dataHighDriven.dir.dataHigh ≠ .input := by decide

/-- The last time constant of 0 units, one of 1 unit; a wait owed a tick, and one that is not. -/
theorem witness_Wait :
    [noWaits.tReset, noWaits.tConvstSettle, noWaits.tBusyPoll, noWaits.tCsSettle, noWaits.tRdPulse,
        noWaits.tRdRelease][(5 : BitVec 3).toNat]? = some 0 ∧
      [Config.standard.tReset, Config.standard.tConvstSettle, Config.standard.tBusyPoll, Config.standard.tCsSettle,
        Config.standard.tRdPulse, Config.standard.tRdRelease][(0 : BitVec 3).toNat]? = some 1 ∧
      (startAt 0x07).waiting = false ∧ (startAt 0x07).waitCnt = 0 ∧
      ({ startAt 0x07 with waiting := true, waitCnt := 1 } : State).waitCnt ≠ 0 := by decide

theorem witness_WaitWithReservedIndex : 6 ≤ (6 : BitVec 3).toNat ∧ 6 ≤ (7 : BitVec 3).toNat := by decide

/-- Three turns, one of them a tick, of a wait that is owed two. -/
theorem witness_WaitDoesNotReturnEarly :
    let ts : List Turn := [.sequencer, .tick, .hwreset false]
    let s := withTurns (ts ++ [.tick]) { startAt 0x07 with waiting := true, waitCnt := 2 }
    s.cfg.Legal ∧ s.pins.hwreset = false ∧ s.waiting = true ∧ s.agenda = ts ++ [.tick] ∧ Turn.hwreset true ∉ ts ∧
      ticksIn ts < s.waitCnt.toNat := by decide

/-- No command; `CMD_RESET` at both quiescent addresses; `CMD_TRIGGER_AND_READ` at 0x01; the refused ones. -/
theorem witness_Wcmd :
    State.reset.pins.cmdValid = false ∧ (withCmd 0b01 (startAt 0x00)).pins.cmdValid = true ∧
      (withCmd 0b01 (startAt 0x01)).pins.cmd = 0b01 ∧ (withCmd 0b10 (startAt 0x01)).pins.cmd = 0b10 ∧
      (withCmd 0b10 (startAt 0x00)).pins.cmd ≠ 0b01 ∧
      ¬((withCmd 0b10 (startAt 0x00)).pins.cmd = 0b10 ∧ (withCmd 0b10 (startAt 0x00)).upc = 0x01) ∧
      ¬((withCmd 0b11 (startAt 0x01)).pins.cmd = 0b10 ∧ (withCmd 0b11 (startAt 0x01)).upc = 0x01) := by decide

theorem witness_Commands :
    (startAt 0x00).upc = 0x00 ∧ (startAt 0x01).upc = 0x01 ∧ (startAt 0x02).upc ≠ 0x00 ∧ (startAt 0x02).upc ≠ 0x01 := by
  decide

/-- Instructions that answer a next state, one of every kind that the frames tell apart. -/
theorem witness_Frames :
    (∃ t, exec .capture0 (startAt 0x19) = .next t) ∧ (∃ t, exec .capture1 (startAt 0x0C) = .next t) ∧
      (∃ t, exec .sample (startAt 0x1D) = .next t) ∧ (∃ t, exec (.set .reset true) (startAt 0x06) = .next t) ∧
      (∃ t, exec .nop (startAt 0x0C) = .next t) ∧ ∃ t, step (withTurns [.sequencer] (startAt 0x02)) = .next t :=
  ⟨⟨_, rfl⟩, ⟨_, rfl⟩, ⟨_, rfl⟩, ⟨_, rfl⟩, ⟨_, rfl⟩, _, rfl⟩

/-- An outside agent's turn, without HWRESET. -/
theorem witness_NamedWriters_outside :
    let s := withTurns [.device true 1 2] (startAt 0x19)
    s.noHwReset ∧ s.nextTurn ≠ .sequencer ∧ ∃ t, step s = .next t :=
  ⟨⟨rfl, by decide⟩, by decide, _, rfl⟩

/-- A flag that rises and one that falls, for each of the two; and both fall by the commands as instructions. -/
theorem witness_ValidFlags :
    (∃ t, exec .sample (startAt 0x1D) = .next t ∧ (startAt 0x1D).sampleValid = false ∧ t.sampleValid = true) ∧
    (∃ t, exec .capture1 (startAt 0x0C) = .next t ∧ (startAt 0x0C).diagValid = false ∧ t.diagValid = true) ∧
    (∃ t, exec .wcmd (withCmd 0b10 { startAt 0x01 with sampleValid := true }) = .next t ∧ t.sampleValid = false) ∧
    (∃ t, exec .wcmd (withCmd 0b01 { startAt 0x00 with diagValid := true }) = .next t ∧ t.diagValid = false) ∧
    (∃ t, exec .cmdReset { startAt 0x01 with sampleValid := true, diagValid := true } = .next t ∧
      t.sampleValid = false ∧ t.diagValid = false) ∧
    ∃ t, exec .cmdTriggerAndRead { startAt 0x01 with sampleValid := true } = .next t ∧ t.sampleValid = false :=
  ⟨⟨_, rfl, rfl, rfl⟩, ⟨_, rfl, rfl, rfl⟩, ⟨_, rfl, rfl⟩, ⟨_, rfl, rfl⟩, ⟨_, rfl, rfl, rfl⟩, ⟨_, rfl, rfl⟩⟩

/-- Ports that differ in what the instruction does not sample. -/
theorem witness_InputsAreSampled :
    sampledAlike (.poll .busy false) Pins.atReset { Pins.atReset with cmdValid := true, dataLow := 0xFF } ∧
      sampledAlike .capture0 Pins.atReset { Pins.atReset with busy := true, cmd := 0b11 } ∧
      sampledAlike .wcmd Pins.atReset { Pins.atReset with cmd := 0b01, busy := true } := by
  simp [sampledAlike, Pins.atReset]

/-- A direction error and a timeout. -/
theorem witness_Raises :
    (∃ t, exec (.set .chipSelect true) { startAt 0x02 with cfg := chipSelectInput } = .next t ∧ t.aborting = true) ∧
    ∃ t, exec (.poll .busy false) (withDevice true 0 0 { startAt 0x11 with pollCnt := 9 }) = .next t ∧
      t.aborting = true := ⟨⟨_, rfl, rfl⟩, ⟨_, rfl, rfl⟩⟩

/-- The five ways of `upc` in one step: dispatch, exit, going back, return, raise. -/
theorem witness_StepIndexMoves :
    (∃ t, exec .wcmd (withCmd 0b01 (startAt 0x00)) = .next t ∧ t.upc ≠ 0x00 + 1 ∧ t.upc ≠ 0x00) ∧
    (∃ t, exec (.poll .busy false) (startAt 0x11) = .next t ∧ t.upc ≠ 0x11 + 1 ∧ t.upc ≠ 0x11) ∧
    (∃ t, exec (.wait 2 true) { startAt 0x12 with waiting := true } = .next t ∧ t.upc ≠ 0x12 + 1 ∧ t.upc ≠ 0x12) ∧
    (∃ t, exec (.ret 1) (startAt 0x0D) = .next t ∧ t.upc ≠ 0x0D + 1 ∧ t.upc ≠ 0x0D) ∧
    ∃ t, exec .capture0 { startAt 0x19 with cfg := dataHighDriven } = .next t ∧ t.upc ≠ 0x19 + 1 ∧ t.upc ≠ 0x19 :=
  ⟨⟨_, rfl, by decide⟩, ⟨_, rfl, by decide⟩, ⟨_, rfl, by decide⟩, ⟨_, rfl, by decide⟩, ⟨_, rfl, by decide⟩⟩

/-- A step that reports. -/
theorem witness_ReportPort :
    ∃ t, step (withTurns [.sequencer] (startAt 0x1D)) = .next t ∧ t.reportValidO = true := ⟨_, rfl, rfl⟩

/-! ### States that meet the protocol invariant -/

/-- The state right after hardware reset meets the invariant's premises. -/
theorem witness_AfterReset : State.reset.cfg.Legal ∧ State.reset.AfterReset :=
  ⟨by decide, ⟨rfl, rfl, rfl, rfl, rfl, rfl, rfl, rfl, rfl, rfl, rfl, rfl⟩⟩

/-- The state at the baseline, at 0x01, with the ports and the turns to come left open. -/
theorem witness_Inv_atBaseline (p : Pins) (ts : List Turn) (c : Config) (h : c.Legal) :
    State.Inv { State.resetWith c with upc := 0x01, pins := p, agenda := ts } := by
  constructor <;> simp [State.resetWith, State.within, Outputs.atReset, h]

/-- A state in the poll loop, at its last allowed read. -/
theorem witness_Inv_polling (p : Pins) :
    State.Inv { startAt 0x11 with cmdLat := 0b10, pollCnt := 9, pins := p } := by
  constructor <;> simp [startAt, State.reset, State.resetWith, Config.standard, State.within, Outputs.atReset]

/-- A state at the first read of the poll loop. -/
theorem witness_Inv_pollingFirst (c : Config) (h : c.Legal) :
    State.Inv { State.resetWith c with upc := 0x11, cmdLat := 0b10 } := by
  have room : 0 < c.maxBusyPolls.toNat := by
    rw [Nat.pos_iff_ne_zero]
    exact fun z => h (BitVec.eq_of_toNat_eq z)
  constructor <;> simp [State.resetWith, State.within, Outputs.atReset, h, room]

/-- A state at the end of the abort routine. -/
theorem witness_Inv_aborting (ts : List Turn) :
    State.Inv { startAt 0x24 with aborting := true, err := .timeout, cmdLat := 0b01, agenda := ts } := by
  constructor <;> simp [startAt, State.reset, State.resetWith, Config.standard, State.within, Outputs.atReset]

/-- A state at the first step of the reset routine whose line is no output. -/
theorem witness_Inv_resetRaises (c : Config) (h : c.Legal) :
    State.Inv { State.resetWith c with upc := 0x02, cmdLat := 0b01 } := by
  constructor <;> simp [State.resetWith, State.within, Outputs.atReset, h]

/-- A state at the diagnostic capture. -/
theorem witness_Inv_diagnostic (c : Config) (h : c.Legal) :
    State.Inv { State.resetWith c with upc := 0x0C, cmdLat := 0b01 } := by
  constructor <;> simp [State.resetWith, State.within, Outputs.atReset, h]

/-- R195: a SET whose line is no output. -/
theorem witness_RaisePoints_set :
    let s : State := { State.resetWith chipSelectInput with upc := 0x02, cmdLat := 0b01 }
    s.Inv ∧ romOp s.cfg s.upc = .ok (.set .chipSelect true) ∧ s.aborting = false ∧
      ∃ t, exec (.set .chipSelect true) s = .next t ∧ t.aborting = true :=
  ⟨witness_Inv_resetRaises _ (by decide), by decide, rfl, _, rfl, rfl⟩

/-- R195: a capture whose high bus is no input. -/
theorem witness_RaisePoints_capture :
    let s : State := { State.resetWith dataHighDriven with upc := 0x0C, cmdLat := 0b01 }
    s.Inv ∧ romOp s.cfg s.upc = .ok .capture1 ∧ s.aborting = false ∧
      ∃ t, exec .capture1 s = .next t ∧ t.aborting = true :=
  ⟨witness_Inv_diagnostic _ (by decide), by decide, rfl, _, rfl, rfl⟩

/-- R195: a POLL of a line that is no input. -/
theorem witness_RaisePoints_poll :
    let s : State := { State.resetWith busyDriven with upc := 0x11, cmdLat := 0b10 }
    s.Inv ∧ romOp s.cfg s.upc = .ok (.poll .busy false) ∧ s.aborting = false ∧
      ∃ t, exec (.poll .busy false) s = .next t ∧ t.aborting = true :=
  ⟨witness_Inv_pollingFirst _ (by decide), by decide, rfl, _, rfl, rfl⟩

/-- R195: the last allowed read answers 1. -/
theorem witness_RaisePoints_timeout :
    let s : State := { startAt 0x11 with
      cmdLat := 0b10, pollCnt := 9, pins := { Pins.atReset with busy := true } }
    s.Inv ∧ romOp s.cfg s.upc = .ok (.poll .busy false) ∧ s.aborting = false ∧
      ∃ t, exec (.poll .busy false) s = .next t ∧ t.aborting = true :=
  ⟨witness_Inv_polling _, by decide, rfl, _, rfl, rfl⟩

/-- R195: an instruction of the abort routine, which does not raise. -/
theorem witness_RaisePoints_aborting :
    let s : State := { startAt 0x24 with aborting := true, err := .timeout, cmdLat := 0b01, agenda := [] }
    s.Inv ∧ romOp s.cfg s.upc = .ok .ret2 ∧ s.aborting = true ∧ ∃ t, exec .ret2 s = .next t :=
  ⟨witness_Inv_aborting _, by decide, rfl, _, rfl⟩

/-- R195, the converse: the first and the last SET of the table, each with a line that is no output, and the conditions
of the other rows. -/
theorem witness_RaisePoints_converse :
    romOp chipSelectInput 0x02 = .ok (.set .chipSelect true) ∧ romOp chipSelectInput 0x1C = .ok (.set .chipSelect true) ∧
      dirOf chipSelectInput .chipSelect ≠ .output ∧
      romOp dataLowDriven 0x0C = .ok .capture1 ∧ romOp dataLowDriven 0x19 = .ok .capture0 ∧
      dataLowDriven.dir.dataLow ≠ .input ∧ romOp busyDriven 0x11 = .ok (.poll .busy false) ∧
      busyDriven.dir.busy ≠ .input ∧ (startAt 0x11).aborting = false := by decide

/-- From the baseline the step goes on. -/
theorem witness_InvariantIsKept :
    let s : State := { State.resetWith .standard with
      upc := 0x01, pins := { Pins.atReset with cmdValid := true, cmd := 0b01 }, agenda := [.sequencer] }
    s.Inv ∧ ∃ t, step s = .next t := ⟨witness_Inv_atBaseline _ _ _ (by decide), _, rfl⟩

/-- SequencerState changes without HWRESET: from the baseline. -/
theorem witness_SequencerStateMoves_accept :
    let s : State := { State.resetWith .standard with
      upc := 0x01, pins := { Pins.atReset with cmdValid := true, cmd := 0b01 }, agenda := [.sequencer] }
    s.Inv ∧ s.noHwReset ∧ ∃ t, step s = .next t ∧ t.seqState ≠ s.seqState :=
  ⟨witness_Inv_atBaseline _ _ _ (by decide), ⟨rfl, by decide⟩, _, rfl, by decide⟩

/-- SequencerState changes without HWRESET: at the end of an abort. -/
theorem witness_SequencerStateMoves_abort :
    let s : State := { startAt 0x24 with
      aborting := true, err := .timeout, cmdLat := 0b01, agenda := [.sequencer] }
    s.Inv ∧ s.noHwReset ∧ s.seqState = .aborting ∧ ∃ t, step s = .next t ∧ t.seqState = .idle :=
  ⟨witness_Inv_aborting _, ⟨rfl, by decide⟩, by decide, _, rfl, by decide⟩

/-! ### A reachable state in the read window -/

/-- What a run reaches is reachable. -/
theorem reachable_run (k : Nat) {s t : State} (h : Reachable s) (hr : Host.Core.run core k s = .next t) :
    Reachable t := by
  induction k generalizing s with
  | zero =>
    simp only [Host.Core.run] at hr
    injection hr with e
    exact e ▸ h
  | succ k ih =>
    simp only [Host.Core.run] at hr
    split at hr
    · exact ih (.step h (by assumption)) hr
    · simp at hr
    · simp at hr

/-- Two commands with no waits: `CMD_RESET` from 0x00, then `CMD_TRIGGER_AND_READ` as far as `CAPTURE 0`. -/
def toTheReadWindow : State :=
  withCmd 0b01 (withTurns (List.replicate 13 .sequencer ++ [.host true 0b10] ++ List.replicate 11 .sequencer ++ [.sequencer])
    { State.resetWith noWaits with pins := Pins.atReset })

/-- A reachable state about to execute `CAPTURE 0`, with both lines asserted; the next step records a bus read. -/
theorem witness_ReadWindow :
    ∃ s, Reachable s ∧ s.out.readStrobe = false ∧ romOp s.cfg s.upc = .ok .capture0 ∧
      ∃ t, step s = .next t ∧ t.transcript ≠ s.transcript ∧
        .readByte .dataLow 0 ∈ t.transcript.drop s.transcript.length :=
  ⟨_, reachable_run 25 (.reset (s := toTheReadWindow) (by decide)
      ⟨rfl, rfl, rfl, rfl, rfl, rfl, rfl, rfl, rfl, rfl, rfl, rfl⟩) rfl, rfl, rfl, _, rfl, by decide, by decide⟩

/-- A reachable state at the diagnostic capture, outside the read window; the next step records a bus read. -/
theorem witness_DiagnosticRead :
    ∃ s, Reachable s ∧ s.upc = 0x0C ∧ s.cfg.diagReadback = true ∧
      ∃ t, step s = .next t ∧ t.transcript ≠ s.transcript ∧
        .readByte .dataHigh 0 ∈ t.transcript.drop s.transcript.length :=
  ⟨_, reachable_run 11 (.reset (s := toTheReadWindow) (by decide)
      ⟨rfl, rfl, rfl, rfl, rfl, rfl, rfl, rfl, rfl, rfl, rfl, rfl⟩) rfl, rfl, rfl, _, rfl, by decide, by decide⟩

/-- A reachable state whose next step lowers CHIP_SELECT, and one whose next step lowers READ_STROBE. -/
theorem witness_LinesFall :
    (∃ s, Reachable s ∧ s.out.chipSelect = true ∧ ∃ t, step s = .next t ∧ t.out.chipSelect = false) ∧
    ∃ s, Reachable s ∧ s.out.readStrobe = true ∧ ∃ t, step s = .next t ∧ t.out.readStrobe = false :=
  have h : Reachable toTheReadWindow :=
    .reset (by decide) ⟨rfl, rfl, rfl, rfl, rfl, rfl, rfl, rfl, rfl, rfl, rfl, rfl⟩
  ⟨⟨_, reachable_run 21 h rfl, rfl, _, rfl, rfl⟩, _, reachable_run 23 h rfl, rfl, _, rfl, rfl⟩

/-- Reachable states right after the falls, from which the next turns lead to `CAPTURE 0`. -/
theorem witness_TicksBeforeCapture :
    (∃ s t, Reachable s ∧ s.upc = 0x16 ∧ s.waiting = false ∧
      s.agenda = [.sequencer, .sequencer, .sequencer] ++ [.sequencer] ∧ Host.Core.run core 3 s = .next t ∧
      t.upc = 0x19) ∧
    ∃ s t, Reachable s ∧ s.upc = 0x18 ∧ s.waiting = false ∧ s.agenda = [.sequencer] ++ [.sequencer] ∧
      Host.Core.run core 1 s = .next t ∧ t.upc = 0x19 :=
  have h : Reachable toTheReadWindow :=
    .reset (by decide) ⟨rfl, rfl, rfl, rfl, rfl, rfl, rfl, rfl, rfl, rfl, rfl, rfl⟩
  ⟨⟨_, _, reachable_run 22 h rfl, rfl, rfl, rfl, rfl, rfl⟩, _, _, reachable_run 24 h rfl, rfl, rfl, rfl, rfl, rfl⟩

/-! ### Whole routines -/

theorem witness_AbortRoutine :
    let s := withTurns (List.replicate 6 .sequencer) { startAt 0x1F with aborting := true, err := .timeout }
    s.rom = [] ∧ s.cfg.Legal ∧ s.upc = 0x1F ∧ s.aborting = true ∧ s.waiting = false ∧ s.pins.hwreset = false ∧
      s.agenda = List.replicate 6 .sequencer ++ [] := by decide

theorem witness_ResetRoutine :
    let s : State := { State.resetWith .standard with
      upc := 0x01, pins := { Pins.atReset with cmdValid := true, cmd := 0b01 }
      agenda := .sequencer :: (resetTurns .standard ++ []) }
    s.Inv ∧ s.cfg.dir = .nominal ∧ s.cmdReady = true ∧ s.pins.hwreset = false ∧ s.pins.cmdValid = true ∧ s.pins.cmd = 0b01 ∧
      s.agenda = .sequencer :: (resetTurns s.cfg ++ []) :=
  ⟨witness_Inv_atBaseline _ _ _ (by decide), by decide⟩

/-- `k` at its greatest. -/
theorem witness_Acquisition :
    let s : State := { State.resetWith .standard with
      upc := 0x01, pins := { Pins.atReset with cmdValid := true, cmd := 0b10 }
      agenda := .sequencer :: (acquisitionTurns .standard 9 0x3C 0x07 ++ []) }
    s.Inv ∧ s.cfg.dir = .nominal ∧ s.upc = 0x01 ∧ s.pins.hwreset = false ∧ s.pins.cmdValid = true ∧ s.pins.cmd = 0b10 ∧
      9 + 1 ≤ s.cfg.maxBusyPolls.toNat ∧
      s.agenda = .sequencer :: (acquisitionTurns s.cfg 9 0x3C 0x07 ++ []) :=
  ⟨witness_Inv_atBaseline _ _ _ (by decide), by decide⟩

/-- `k` at its least. -/
theorem witness_Acquisition_notBusy :
    let s : State := { State.resetWith .standard with
      upc := 0x01, pins := { Pins.atReset with cmdValid := true, cmd := 0b10 }
      agenda := .sequencer :: (acquisitionTurns .standard 0 0x3C 0x07 ++ []) }
    s.Inv ∧ s.cfg.dir = .nominal ∧ s.upc = 0x01 ∧ s.pins.hwreset = false ∧ s.pins.cmdValid = true ∧ s.pins.cmd = 0b10 ∧
      0 + 1 ≤ s.cfg.maxBusyPolls.toNat ∧
      s.agenda = .sequencer :: (acquisitionTurns s.cfg 0 0x3C 0x07 ++ []) :=
  ⟨witness_Inv_atBaseline _ _ _ (by decide), by decide⟩

theorem witness_Timeout :
    let s : State := { State.resetWith .standard with
      upc := 0x01, pins := { Pins.atReset with cmdValid := true, cmd := 0b10 }
      agenda := .sequencer :: (timeoutTurns .standard 9 ++ []) }
    s.Inv ∧ s.cfg.dir = .nominal ∧ s.upc = 0x01 ∧ s.pins.hwreset = false ∧ s.pins.cmdValid = true ∧ s.pins.cmd = 0b10 ∧
      9 + 1 = s.cfg.maxBusyPolls.toNat ∧ s.agenda = .sequencer :: (timeoutTurns s.cfg 9 ++ []) :=
  ⟨witness_Inv_atBaseline _ _ _ (by decide), by decide⟩

/-! ### Every schedule -/

/-- Sequencer and tick in turn. -/
def alternating (n : Nat) : Turn := if n % 2 = 0 then .sequencer else .tick

/-- A fair schedule without HWRESET, and a state that meets the invariant, with a command in progress. -/
theorem witness_Fairness :
    let s : State := { State.resetWith .standard with upc := 0x02, cmdLat := 0b01 }
    s.Inv ∧ s.pins.hwreset = false ∧ neverHwReset alternating ∧ Fair s alternating := by
  refine ⟨witness_Inv_resetRaises _ (by decide), rfl, fun n => ?_, fun n _ _ _ => ⟨2 * n + 1, by omega, ?_⟩,
    fun n _ _ _ => ⟨2 * n, by omega, ?_⟩⟩
  · unfold alternating
    split <;> simp
  · have odd : (2 * n + 1) % 2 ≠ 0 := by omega
    exact if_neg odd
  · have even : 2 * n % 2 = 0 := by omega
    exact if_pos even

/-- A held state and a schedule that brings no tick. -/
theorem witness_Hang :
    let s : State := { startAt 0x07 with waiting := true, waitCnt := 1 }
    s.cfg.Legal ∧ s.pins.hwreset = false ∧ s.held = true ∧ neverHwReset (fun _ => .sequencer) ∧
      ∀ n, (fun _ : Nat => Turn.sequencer) n ≠ .tick := by
  simp [startAt, State.reset, State.resetWith, Config.standard, Pins.atReset, State.held, neverHwReset]

/-- The turns of the reset routine with no waits, with a tick that does not count and a Host's turn among them. -/
theorem witness_CommandRun_reset :
    let ts : List Turn := .tick :: .host false 0b11 :: List.replicate 12 .sequencer
    let s : State := { State.resetWith noWaits with upc := 0x02, cmdLat := 0b01, agenda := ts }
    s.Inv ∧ s.cfg.dir = .nominal ∧ s.upc = 0x02 ∧ ∃ t, CommandRun s ts t := by
  refine ⟨?_, by decide, by decide, _, ⟨[], by decide⟩, rfl, by decide, rfl, rfl, ?_⟩
  · constructor <;> simp [State.resetWith, State.within, Outputs.atReset, noWaits, Config.standard]
  · intro n u hn hu
    have hn' : n < 14 := hn
    clear hn
    interval_cases n <;> cases hu <;> rfl

/-- An acquisition with no waits that ends in the sample after one busy answer. -/
theorem witness_CommandRun_acquisition :
    let ts : List Turn := [.device true 0 0] ++ List.replicate 5 .sequencer ++ [.device false 0x3C 0x07] ++
      List.replicate 13 .sequencer
    let s : State := { State.resetWith noWaits with upc := 0x0E, cmdLat := 0b10, agenda := ts }
    s.Inv ∧ s.cfg.dir = .nominal ∧ s.upc = 0x0E ∧ s.pollCnt = 0 ∧ ∃ t, CommandRun s ts t := by
  refine ⟨?_, by decide, by decide, by decide, _, ⟨[], by decide⟩, rfl, by decide, rfl, rfl, ?_⟩
  · constructor <;> simp [State.resetWith, State.within, Outputs.atReset, noWaits, Config.standard]
  · intro n u hn hu
    have hn' : n < 20 := hn
    clear hn
    interval_cases n <;> cases hu <;> rfl

/-- An acquisition with no waits and a bound of 1 that times out. -/
theorem witness_CommandRun_timeout :
    let ts : List Turn := [.device true 0 0] ++ List.replicate 10 .sequencer
    let s : State := { State.resetWith { noWaits with maxBusyPolls := 1 } with
      upc := 0x0E, cmdLat := 0b10, agenda := ts }
    s.Inv ∧ s.cfg.dir = .nominal ∧ s.upc = 0x0E ∧ s.pollCnt = 0 ∧ ∃ t, CommandRun s ts t := by
  refine ⟨?_, by decide, by decide, by decide, _, ⟨[], by decide⟩, rfl, by decide, rfl, rfl, ?_⟩
  · constructor <;> simp [State.resetWith, State.within, Outputs.atReset, noWaits, Config.standard]
  · intro n u hn hu
    have hn' : n < 11 := hn
    clear hn
    interval_cases n <;> cases hu <;> rfl

end Sys2Proof.Tests
end

section
/-! PROOFS. What a turn of the Device or of the Host does while `hwreset_i = 0` (`00_scope.md` R12). -/

namespace Sys2Proof.Machine

/-- With `hwreset_i` released the state is not held at its reset values. -/
theorem State.underReset_of_released {s : State} (hr : s.pins.hwreset = false) : s.underReset = s := by
  simp [State.underReset, hr]

/-- The Device's turn drives its three input ports. -/
theorem State.outsideTurn_device_of_released {s : State} (hr : s.pins.hwreset = false) (b : Bool) (lo hi : Byte) :
    s.outsideTurn (.device b lo hi) = { s with pins := { s.pins with busy := b, dataLow := lo, dataHigh := hi } } :=
  State.underReset_of_released hr

/-- The Host's turn drives its command port. -/
theorem State.outsideTurn_host_of_released {s : State} (hr : s.pins.hwreset = false) (v : Bool) (c : CmdCode) :
    s.outsideTurn (.host v c) = { s with pins := { s.pins with cmdValid := v, cmd := c } } :=
  State.underReset_of_released hr

/-- The step of an outside agent is its turn, begun; it neither faults nor is refused. -/
theorem step_of_outsideTurn {s : State} {t : Turn} (hl : s.cfg.Legal) (ht : s.nextTurn = t) (hs : t ≠ .sequencer) :
    step s = .next (s.beginTurn.outsideTurn t) := by
  rw [step_of_turn hl ht, if_neg hs]

/-- Settles O18: the step is the agent's turn, and with `hwreset_i = 0` the turn drives the agent's ports only. -/
theorem deviceAndHostChangeOnlyTheirPorts : Obligations.DeviceAndHostChangeOnlyTheirPorts := by
  intro s hl hr
  have hrBegun : s.beginTurn.pins.hwreset = false := by rwa [State.beginTurn_pins]
  constructor
  · intro b lo hi ht
    rw [step_of_outsideTurn hl ht Turn.noConfusion, State.outsideTurn_device_of_released hrBegun,
      State.beginTurn_pins]
  · intro v c ht
    rw [step_of_outsideTurn hl ht Turn.noConfusion, State.outsideTurn_host_of_released hrBegun,
      State.beginTurn_pins]

end Sys2Proof.Machine
end

section
/-! PROOFS. The step by its turn (`10_state.md` R26, R40, R50), hardware reset (R55) and the output ports (R42, R54). -/

namespace Sys2Proof.Machine

variable {s : State}

/-! ## The step by its turn -/

/-- The Sequencer's step, not in reset, runs the fetched word unless it is held. -/
theorem step_of_sequencer (hl : s.cfg.Legal) (ht : s.nextTurn = .sequencer) (hr : s.pins.hwreset = false) :
    step s = if s.held then .next s.beginTurn else runFetched s.beginTurn := by
  rw [step_of_turn hl ht, if_pos rfl]
  simp [sequencerTurn, hr]

/-- Settles O10: the word at `upc` runs in the state in which the turn has begun. -/
theorem stepRunsTheDecodedInstruction : Obligations.StepRunsTheDecodedInstruction := by
  intro s w i hl ht hr hh hf hd
  have hword : decode (s.beginTurn.rom.word s.beginTurn.cfg s.beginTurn.upc.toNat) = .ok i := by
    rw [State.fetch_eq, Except.ok.injEq] at hf
    simpa [hf] using hd
  rw [step_of_sequencer hl ht hr, hh, if_neg Bool.false_ne_true, runFetched_of_decode hword, State.beginTurn_eq]

/-- Settles O12: the bound is tested before the turn is looked at. -/
theorem stepRefusesZeroPollBound : Obligations.StepRefusesZeroPollBound := by
  intro s hz
  exact if_pos hz

/-- Settles O17: `waiting = 1` with ticks owed is what holds the Sequencer. -/
theorem heldSequencerDoesNothing : Obligations.HeldSequencerDoesNothing := by
  intro s hl hr ht hw hc
  have hne : s.waitCnt ≠ 0#32 := fun hz => by simp [hz] at hc
  rw [step_of_sequencer hl ht hr, if_pos (State.held_eq_true.2 ⟨hw, hne⟩)]

/-! ## Hardware reset -/

/-- A turn that finds `hwreset_i` at 1, or drives it to 1, ends in the reset values; only HWRESET's own turn moves the
level. -/
theorem step_hwReset (hl : s.cfg.Legal) (h : s.pins.hwreset = true ∨ s.nextTurn = .hwreset true) :
    ∃ p : Pins, step s = .next ({ s.beginTurn with pins := p } : State).hwReset ∧
      ∀ level, s.nextTurn = .hwreset level → p = { s.pins with hwreset := level } := by
  rw [step_of_turn hl rfl]
  cases ht : s.nextTurn with
  | hwreset level =>
    refine ⟨{ s.pins with hwreset := level }, ?_, by simp⟩
    rcases h with hr | hup
    · simp [State.outsideTurn, hr]
    · obtain rfl : level = true := by simpa [ht] using hup
      cases hr : s.pins.hwreset <;> simp [State.outsideTurn, State.underReset, hr]
  | sequencer =>
    have hr : s.pins.hwreset = true := by simpa [ht] using h
    exact ⟨s.beginTurn.pins, by rw [if_pos rfl, sequencerTurn, if_pos (by simpa using hr)], by simp⟩
  | tick =>
    have hr : s.pins.hwreset = true := by simpa [ht] using h
    exact ⟨s.beginTurn.pins, by rw [if_neg Turn.noConfusion, State.outsideTurn, if_pos (by simpa using hr)], by simp⟩
  | device b lo hi =>
    have hr : s.pins.hwreset = true := by simpa [ht] using h
    exact ⟨{ s.pins with busy := b, dataLow := lo, dataHigh := hi }, by
      simp [State.outsideTurn, State.underReset, hr], by simp⟩
  | host v k =>
    have hr : s.pins.hwreset = true := by simpa [ht] using h
    exact ⟨{ s.pins with cmdValid := v, cmd := k }, by simp [State.outsideTurn, State.underReset, hr], by simp⟩

/-- The states right after reset that the model offers have the values of R55. -/
theorem State.resetWith_afterReset (c : Config) : (State.resetWith c).AfterReset :=
  ⟨rfl, rfl, rfl, rfl, rfl, rfl, rfl, rfl, rfl, rfl, rfl, rfl⟩

/-- HWRESET with the spec's ROM leads to a state right after reset. -/
theorem State.hwReset_afterReset (hrom : s.rom = []) : s.hwReset.AfterReset :=
  ⟨rfl, rfl, rfl, rfl, rfl, rfl, rfl, rfl, rfl, rfl, rfl, hrom⟩

/-- Settles O19: the step ends in `State.hwReset`, whose registers are the table's by definition. -/
theorem hwResetGivesTheTableOfR55 : Obligations.HwResetGivesTheTableOfR55 := by
  refine ⟨fun s hl h => ?_, fun c => ⟨State.resetWith_afterReset c, rfl, rfl⟩⟩
  obtain ⟨p, hstep, hp⟩ := step_hwReset hl h
  refine ⟨_, hstep, ?_⟩
  simpa [Outputs.atReset, State.seqState, phase, State.cmdReadyO, State.cmdReady] using hp

/-! ## The output ports -/

/-- `st_o` is the code of SequencerState. -/
theorem State.stO_eq {p : SeqState} (h : s.seqState = p) : s.stO = p.code := by rw [State.stO, h]

/-- `err_o` is the code of the error. -/
theorem State.errO_eq {e : ErrKind} (h : s.err = e) : s.errO = e.code := by rw [State.errO, h]

/-- While `sample_valid = 1` every look shows the sample and its bytes. -/
theorem State.samplePorts_of_valid (h : s.sampleValid = true) (look : Nat) :
    s.sampleO look = s.sample ∧ s.lowByteO look = s.lowByte ∧ s.highByteO look = s.highByte :=
  ⟨if_pos h, if_pos h, if_pos h⟩

/-- While `diag_valid = 1` every look shows the diagnostic bytes. -/
theorem State.diagPorts_of_valid (h : s.diagValid = true) (look : Nat) :
    s.diagLowO look = s.diagLow ∧ s.diagHighO look = s.diagHigh :=
  ⟨if_pos h, if_pos h⟩

/-- A line is driven with its port's level where its direction is `Out`, and not driven where it is `In`. -/
theorem State.drivenLevel_eq (s : State) (l : Line) :
    s.drivenLevel l = if dirOf s.cfg l = .output then s.lineO l else none := by
  cases h : dirOf s.cfg l <;> simp [State.drivenLevel, State.lineO, h]

/-- The Report ports in a step that reports. -/
theorem State.reportPorts_of_report {k : ReportLabel} {v : Half} (h : s.report = some (k, v)) :
    s.reportValidO = true ∧ s.reportLabelO = some k.code ∧ s.reportValueO = some v := by
  simp [State.reportValidO, State.reportLabelO, State.reportValueO, h]

/-- Settles O20, port by port. -/
theorem statusPortsShowTheRegisters : Obligations.StatusPortsShowTheRegisters := by
  intro s
  refine ⟨rfl, rfl, rfl, rfl, fun look h => State.samplePorts_of_valid h look,
    fun look h => State.diagPorts_of_valid h look,
    ⟨State.stO_eq, State.stO_eq, State.stO_eq, State.stO_eq, State.stO_eq, State.stO_eq⟩,
    ⟨State.errO_eq, State.errO_eq, State.errO_eq, State.errO_eq⟩,
    ⟨rfl, rfl, rfl, rfl, rfl, rfl, rfl, rfl⟩, fun l => ?_, fun h => ?_,
    fun v => ⟨State.reportPorts_of_report, State.reportPorts_of_report, State.reportPorts_of_report⟩⟩
  · exact ⟨fun h => by rw [State.drivenLevel_eq, if_pos h], fun h => by simp [State.drivenLevel_eq, h]⟩
  · simp [State.reportValidO, h]

end Sys2Proof.Machine
end

section
/-! PROOFS. The writers of the data registers, the lines and the valid flags (`10_state.md` R21 to R25,
R33, R34, R44). -/

namespace Sys2Proof.Machine

variable {s t : State} {i : Instr} {k : CmdCode}

/-- The instructions that can consume a command (`43_control_ops.md` R177; log 10). -/
def Instr.takesCommand : Instr → Bool
  | .wcmd | .cmdReset | .cmdTriggerAndRead => true
  | _ => false

/-- The frame of one instruction: what it leaves alone of the data registers, the lines and the valid flags. -/
structure DataFrame (i : Instr) (s t : State) : Prop where
  bytes : i ≠ .capture0 → t.lowByte = s.lowByte ∧ t.highByte = s.highByte
  sample : i ≠ .sample → t.sample = s.sample
  diag : i ≠ .capture1 → t.diagLow = s.diagLow ∧ t.diagHigh = s.diagHigh
  out : (∀ l v, i ≠ .set l v) → t.out = s.out
  sampleValid : i ≠ .sample → Instr.takesCommand i = false → t.sampleValid = s.sampleValid
  diagValid : i ≠ .capture1 → Instr.takesCommand i = false → t.diagValid = s.diagValid

/-- The instruction presents the command `k`: WCMD the one on the port, a command row its own. -/
def Presents (i : Instr) (s : State) (k : CmdCode) : Prop :=
  i = .wcmd ∧ s.pins.cmdValid = true ∧ s.pins.cmd = k ∨ i = .cmdReset ∧ k = 0b01#2 ∨
    i = .cmdTriggerAndRead ∧ k = 0b10#2

/-- An instruction that takes a command presents one, or rests. -/
theorem exec_takesCommand (h : exec i s = .next t) (hi : Instr.takesCommand i = true) :
    t = s ∨ ∃ k, t = s.presentCommand k ∧ Presents i s k := by
  cases i with
  | wcmd =>
    rcases execWcmd_cases h with ⟨-, ht⟩ | ⟨hv, ht⟩
    · exact .inl ht
    · exact .inr ⟨_, ht, .inl ⟨rfl, hv, rfl⟩⟩
  | cmdReset => exact .inr ⟨_, (Host.Outcome.next.inj h).symm, .inr (.inl ⟨rfl, rfl⟩)⟩
  | cmdTriggerAndRead => exact .inr ⟨_, (Host.Outcome.next.inj h).symm, .inr (.inr ⟨rfl, rfl⟩)⟩
  | _ => cases hi

/-- Presenting a command writes no data register and drives no line. -/
theorem State.presentCommand_dataFrame (hi : Instr.takesCommand i = true) :
    DataFrame i s (s.presentCommand k) := by
  rcases s.presentCommand_cases k with ⟨-, h⟩ | ⟨-, -, h⟩ | ⟨-, -, h⟩ | ⟨-, -, -, h⟩ <;>
    rw [h] <;> constructor <;> simp [hi]

/-- Taking an error writes no data register, no line and no valid flag. -/
theorem State.raise_dataFrame (e : ErrKind) (l : Line) : DataFrame i s (s.raise e l) := by
  constructor <;> simp

/-- What every instruction leaves alone. -/
theorem exec_dataFrame (h : exec i s = .next t) : DataFrame i s t := by
  cases i with
  | nop =>
    obtain rfl : s.advance = t := Host.Outcome.next.inj h
    constructor <;> simp
  | set l v =>
    rcases execSet_cases h with ⟨-, -, rfl⟩ | ⟨-, -, rfl⟩ | ⟨-, o, -, rfl⟩
    · constructor <;> simp
    · exact State.raise_dataFrame _ _
    · constructor <;> simp
  | wait j b =>
    obtain ⟨n, -, ⟨-, -, rfl⟩ | ⟨-, -, rfl⟩ | ⟨-, -, rfl⟩ | ⟨-, -, rfl⟩⟩ := execWait_cases h <;>
      constructor <;> simp
  | poll l v =>
    rcases execPoll_cases h with ⟨-, rfl⟩ | ⟨-, ⟨-, rfl⟩ | ⟨-, -, rfl⟩ | ⟨-, -, rfl⟩⟩
    · exact State.raise_dataFrame _ _
    all_goals constructor <;> simp
  | capture0 =>
    rcases execCapture0_cases h with ⟨m, -, rfl⟩ | ⟨-, rfl⟩
    · exact State.raise_dataFrame _ _
    · constructor <;> simp
  | capture1 =>
    rcases execCapture1_cases h with ⟨m, -, rfl⟩ | ⟨-, rfl⟩
    · exact State.raise_dataFrame _ _
    · constructor <;> simp
  | sample =>
    obtain rfl := Host.Outcome.next.inj h
    constructor <;> simp
  | ret m =>
    obtain rfl : s.goto _ = t := Host.Outcome.next.inj h
    constructor <;> simp
  | ret2 =>
    obtain rfl : s.endAbort = t := Host.Outcome.next.inj h
    constructor <;> simp
  | wcmd | cmdReset | cmdTriggerAndRead =>
    rcases exec_takesCommand h rfl with rfl | ⟨k, rfl, -⟩
    · constructor <;> simp
    · exact State.presentCommand_dataFrame rfl

/-- Settles O42: the instructions by their frame; an outside agent that neither finds nor starts HWRESET moves a wait's
count or the input ports only. -/
theorem registersHaveTheirNamedWriters : Obligations.RegistersHaveTheirNamedWriters := by
  constructor
  · intro i s t h
    have frame := exec_dataFrame h
    exact ⟨frame.bytes, frame.sample, frame.diag, frame.out⟩
  · intro s t ⟨hr, hup⟩ hs h
    rw [step_of_outsideTurn (legal_of_step h) rfl hs, Host.Outcome.next.injEq] at h
    subst h
    rcases s.beginTurn.outsideTurn_cases s.nextTurn with ⟨p, -, hreset⟩ | ⟨-, -, htick⟩ | ⟨p, hpins, -⟩
    · simp [hr, hup] at hreset
    · rw [htick, State.tick_eq]
      split <;> simp
    · simp [hpins]

/-! ## The valid flags -/

/-- From `s` the instruction has had the command `k` accepted: it is latched and recorded, and its routine is next
(`43_control_ops.md` R178). -/
structure Accepts (i : Instr) (s t : State) (k : CmdCode) : Prop where
  presented : Presents i s k
  latched : t.cmdLat = k
  entered : k = 0b01#2 ∧ (s.upc = 0x00#6 ∨ s.upc = 0x01#6) ∧ t.upc = 0x02#6 ∨
    k = 0b10#2 ∧ s.upc = 0x01#6 ∧ t.upc = 0x0E#6
  recorded : t.transcript = s.transcript ++ [.cmd k]
  noError : t.err = .none

/-- A presented command leaves the valid flags, or it is accepted and they fall. -/
theorem State.presentCommand_flags (hp : Presents i s k) :
    ((s.presentCommand k).sampleValid = s.sampleValid ∧ (s.presentCommand k).diagValid = s.diagValid) ∨
    (Accepts i s (s.presentCommand k) k ∧ (s.presentCommand k).sampleValid = false ∧
      (s.presentCommand k).diagValid = if k = 0b01#2 then false else s.diagValid) := by
  rcases s.presentCommand_cases k with ⟨-, h⟩ | ⟨hr, hk, h⟩ | ⟨hu, hk, h⟩ | ⟨-, -, -, h⟩
  · exact .inl (by rw [h]; exact ⟨rfl, rfl⟩)
  · rw [h]
    exact .inr ⟨⟨hp, rfl, .inl ⟨hk, State.cmdReady_eq_true.1 hr, rfl⟩, rfl, rfl⟩, rfl, (if_pos hk).symm⟩
  · rw [h]
    exact .inr ⟨⟨hp, rfl, .inr ⟨hk, hu, rfl⟩, rfl, rfl⟩, rfl, (if_neg (by simp [hk])).symm⟩
  · exact .inl (by rw [h]; exact ⟨rfl, rfl⟩)

/-- All that an instruction can do to the valid flags. -/
theorem exec_flags (h : exec i s = .next t) :
    (t.sampleValid = s.sampleValid ∧ t.diagValid = s.diagValid) ∨
    (i = .sample ∧ t.sampleValid = true ∧ t.diagValid = s.diagValid) ∨
    (i = .capture1 ∧ t.sampleValid = s.sampleValid ∧ t.diagValid = true) ∨
    ∃ k, Accepts i s t k ∧ t.sampleValid = false ∧ t.diagValid = if k = 0b01#2 then false else s.diagValid := by
  cases hc : Instr.takesCommand i with
  | true =>
    rcases exec_takesCommand h hc with rfl | ⟨k, rfl, hp⟩
    · exact .inl ⟨rfl, rfl⟩
    · rcases State.presentCommand_flags hp with hkept | hfall
      · exact .inl hkept
      · exact .inr (.inr (.inr ⟨k, hfall⟩))
  | false =>
    have frame := exec_dataFrame h
    by_cases hs : i = .sample
    · subst hs
      obtain rfl := Host.Outcome.next.inj h
      exact .inr (.inl ⟨rfl, rfl, rfl⟩)
    by_cases h1 : i = .capture1
    · subst h1
      rcases execCapture1_cases h with ⟨m, -, rfl⟩ | ⟨-, rfl⟩
      · exact .inl ⟨rfl, rfl⟩
      · exact .inr (.inr (.inl ⟨rfl, rfl, rfl⟩))
    · exact .inl ⟨frame.sampleValid hs hc, frame.diagValid h1 hc⟩

/-- What the statement says of an instruction that lowers `sample_valid`. -/
theorem Accepts.sampleClause (h : Accepts i s t k) :
    (i = .wcmd ∧ s.pins.cmdValid = true ∧ s.pins.cmd = t.cmdLat ∨ i = .cmdReset ∧ t.cmdLat = 0b01#2 ∨
      i = .cmdTriggerAndRead ∧ t.cmdLat = 0b10#2) ∧
    (s.upc = 0x00#6 ∧ t.cmdLat = 0b01#2 ∧ t.upc = 0x02#6 ∨ s.upc = 0x01#6 ∧ t.cmdLat = 0b01#2 ∧ t.upc = 0x02#6 ∨
      s.upc = 0x01#6 ∧ t.cmdLat = 0b10#2 ∧ t.upc = 0x0E#6) ∧
    t.transcript = s.transcript ++ [.cmd t.cmdLat] ∧ t.err = .none := by
  obtain ⟨hp, rfl, hentered, hrecorded, hnone⟩ := h
  refine ⟨hp, ?_, hrecorded, hnone⟩
  rcases hentered with ⟨hk, hu | hu, ht⟩ | ⟨hk, hu, ht⟩
  · exact .inl ⟨hu, hk, ht⟩
  · exact .inr (.inl ⟨hu, hk, ht⟩)
  · exact .inr (.inr ⟨hu, hk, ht⟩)

/-- What the statement says of an instruction that lowers `diag_valid`. -/
theorem Accepts.diagClause (h : Accepts i s t 0b01#2) :
    (i = .wcmd ∧ s.pins.cmdValid = true ∧ s.pins.cmd = 0b01#2 ∨ i = .cmdReset) ∧
    (s.upc = 0x00#6 ∨ s.upc = 0x01#6) ∧ t.cmdLat = 0b01#2 ∧ t.upc = 0x02#6 ∧
    t.transcript = s.transcript ++ [.cmd 0b01#2] ∧ t.err = .none := by
  obtain ⟨hp, hlat, hentered, hrecorded, hnone⟩ := h
  obtain ⟨hu, ht⟩ : (s.upc = 0x00#6 ∨ s.upc = 0x01#6) ∧ t.upc = 0x02#6 := by simpa using hentered
  have hi : i = .wcmd ∧ s.pins.cmdValid = true ∧ s.pins.cmd = 0b01#2 ∨ i = .cmdReset := by
    simpa [Presents] using hp
  exact ⟨hi, hu, hlat, ht, hrecorded, hnone⟩

/-- Settles O43: `exec_flags` names the instructions that raise a flag, and what lowers one is an accepted command. -/
theorem validFlagsRiseAndFallAsStated : Obligations.ValidFlagsRiseAndFallAsStated := by
  intro i s t h
  rcases exec_flags h with ⟨hsv, hdv⟩ | ⟨hi, hsv, hdv⟩ | ⟨hi, hsv, hdv⟩ | ⟨k, hacc, hsv, hdv⟩
  · simp +contextual [hsv, hdv]
  · simp +contextual [hi, hsv, hdv]
  · simp +contextual [hi, hsv, hdv]
  · refine ⟨by simp [hsv], fun h0 h1 => ?_, fun _ _ => hacc.sampleClause, fun h1 h0 => ?_⟩
    · simp [hdv, h0] at h1
    · obtain rfl : k = 0b01#2 := by
        by_contra hk
        simp [hdv, hk, h1] at h0
      exact hacc.diagClause

end Sys2Proof.Machine
end

section
/-! PROOFS. Where the spec's ROM holds each micro-op (`30_encoding.md` R92). -/

namespace Sys2Proof.Machine

variable {c : Config} {a : StepAddr} {i : Instr}

/-- The addresses at which the spec's ROM can hold a micro-op (`30_encoding.md` R92), whatever the mode bits. -/
def standsAt : Instr → Nat → Bool
  | .nop, n => n = 0x0C
  | .set .chipSelect true, n => n ∈ [0x02, 0x1C, 0x20]
  | .set .chipSelect false, n => n = 0x15
  | .set .readStrobe true, n => n ∈ [0x03, 0x1A, 0x1F]
  | .set .readStrobe false, n => n = 0x17
  | .set .reset _, n => n ∈ [0x06, 0x08, 0x0A, 0x23]
  | .set .convst _, n => n ∈ [0x04, 0x0F, 0x13, 0x21]
  | .set .companion _, n => n ∈ [0x05, 0x0E, 0x14, 0x22]
  | .wait _ false, n => n ∈ [0x07, 0x09, 0x0B, 0x10, 0x16, 0x18, 0x1B]
  | .wait _ true, n => n = 0x12
  | .poll .busy false, n => n = 0x11
  | .capture0, n => n = 0x19
  | .capture1, n => n = 0x0C
  | .sample, n => n = 0x1D
  | .wcmd, n => n ≤ 0x01
  | .ret m, n => if m = 1 then n ∈ [0x0D, 0x1E] else 0x25 ≤ n
  | .ret2, n => n = 0x24
  | _, _ => false

/-- A micro-op of the spec's ROM stands where `standsAt` says; checked for all 64 words under the three mode bits. -/
theorem romOp_standsAt (h : romOp c a = .ok i) : standsAt i a.toNat = true := by
  have key : ∀ (d p q : Bool) (a : StepAddr),
      (romOp { Config.standard with diagReadback := d, companionAssertLevel := p, companionDeassertLevel := q }
        a).toOption.all (standsAt · a.toNat) = true := by decide
  have at_a := key c.diagReadback c.companionAssertLevel c.companionDeassertLevel a
  rw [romOp, ← romWord_standard, ← romOp, h] at at_a
  exact at_a

/-- `WCMD` stands at both quiescent addresses under every configuration. -/
theorem romOp_quiescent (c : Config) : romOp c 0x00#6 = .ok .wcmd ∧ romOp c 0x01#6 = .ok .wcmd := by
  have hword : decode 0xC0#8 = .ok .wcmd := by decide
  exact ⟨hword, hword⟩

/-- Settles O7: `WCMD` stands at the two quiescent addresses and nowhere else. -/
theorem readyExactlyWhereTheRomHoldsWcmd : Obligations.ReadyExactlyWhereTheRomHoldsWcmd := by
  refine ⟨fun s => State.cmdReady_eq_true, fun c a => ⟨fun h => ?_, ?_⟩⟩
  · have hle : a.toNat ≤ 1 := by simpa [standsAt] using romOp_standsAt h
    bv_omega
  · rintro (rfl | rfl)
    · exact (romOp_quiescent c).1
    · exact (romOp_quiescent c).2

/-! ## The control flow of the ROM -/

/-- Inside the reset, the acquisition or the abort routine, before its last word (`30_encoding.md` R92). -/
abbrev InsideRoutine (n : Nat) : Prop :=
  0x02 ≤ n ∧ n < 0x0D ∨ 0x0E ≤ n ∧ n < 0x1E ∨ 0x1F ≤ n ∧ n < 0x24

/-- The next address on the way through a routine: the one after, or one of the two jumps of the poll loop
(`40_host_commands.md` R124). -/
abbrev Follows (a b : StepAddr) : Prop :=
  (InsideRoutine a.toNat ∧ b = a + 1#6) ∨ (a = 0x11#6 ∧ b = 0x13#6) ∨ (a = 0x12#6 ∧ b = 0x11#6)

/-- The same of the addresses as numbers: no routine runs over the end of the ROM. -/
theorem Follows.toNat {b : StepAddr} (h : Follows a b) :
    InsideRoutine a.toNat ∧ b.toNat = a.toNat + 1 ∨ (a.toNat = 0x11 ∧ b.toNat = 0x13) ∨
      (a.toNat = 0x12 ∧ b.toNat = 0x11) := by
  rcases h with ⟨hin, rfl⟩ | ⟨rfl, rfl⟩ | ⟨rfl, rfl⟩
  · exact .inl ⟨hin, BitVec.toNat_add_of_lt (by simp; omega)⟩
  · exact .inr (.inl ⟨rfl, rfl⟩)
  · exact .inr (.inr ⟨rfl, rfl⟩)

/-- The addresses at which an error can be raised: in the reset and the acquisition routine, up to the last SET
(`60_exceptions.md` R195). -/
abbrev MayRaiseAt (n : Nat) : Prop := 0x02 ≤ n ∧ n < 0x0D ∨ 0x0E ≤ n ∧ n ≤ 0x1C

/-- Only WCMD and the returns stand outside the routines or at their ends. -/
theorem insideRoutine_of_standsAt {n : Nat} (h : standsAt i n = true) (hw : i ≠ .wcmd) (hr : ∀ m, i ≠ .ret m)
    (h2 : i ≠ .ret2) : InsideRoutine n := by
  cases i with
  | set l v => cases l <;> cases v <;> simp [standsAt] at h <;> omega
  | wait k b => cases b <;> simp [standsAt] at h <;> omega
  | poll l v => cases l <;> cases v <;> simp [standsAt] at h; omega
  | nop | capture0 | capture1 | sample => simp [standsAt] at h; omega
  | wcmd => exact absurd rfl hw
  | ret m => exact absurd rfl (hr m)
  | ret2 => exact absurd rfl h2
  | cmdReset | cmdTriggerAndRead => simp [standsAt] at h

/-- At the addresses after which CHIP_SELECT or READ_STROBE has another level stands a SET. -/
theorem not_windowEdge_of_standsAt {n : Nat} (h : standsAt i n = true) (hi : ∀ l v, i ≠ .set l v) :
    n ∉ [0x15, 0x17, 0x1A, 0x1F] := by
  cases i with
  | set l v => exact absurd rfl (hi l v)
  | wait k b => cases b <;> simp [standsAt] at h ⊢ <;> omega
  | poll l v => cases l <;> cases v <;> simp [standsAt] at h ⊢; omega
  | nop | capture0 | capture1 | sample | wcmd | ret2 => simp [standsAt] at h ⊢; omega
  | ret m =>
    simp only [standsAt] at h
    split at h <;> simp at h ⊢ <;> omega
  | cmdReset | cmdTriggerAndRead => simp [standsAt] at h

/-- A SET, a POLL or a CAPTURE outside the abort routine stands where an error can be raised. -/
theorem mayRaiseAt_of_standsAt {n : Nat} (h : standsAt i n = true) (hn : n < 0x1F)
    (hi : (∃ l v, i = .set l v) ∨ (∃ l v, i = .poll l v) ∨ i = .capture0 ∨ i = .capture1) : MayRaiseAt n := by
  rcases hi with ⟨l, v, rfl⟩ | ⟨l, v, rfl⟩ | rfl | rfl
  · cases l <;> cases v <;> simp [standsAt] at h <;> omega
  · cases l <;> cases v <;> simp [standsAt] at h; omega
  · simp [standsAt] at h; omega
  · simp [standsAt] at h; omega

end Sys2Proof.Machine
end

section
/-! PROOFS. What a turn moves of the registers that the invariant speaks of (`10_state.md` R56,
`70_reset_and_hazards.md` R230), in five kinds, and that each kind keeps the invariant. -/

namespace Sys2Proof.Machine

variable {s t : State} {i : Instr} {c : Config} {o o' : Outputs} {a b : StepAddr} {n : Nat}

/-! ## The read window -/

/-- The clauses of the invariant about CHIP_SELECT and READ_STROBE, of an address and the lines. -/
structure WindowOk (c : Config) (n : Nat) (o : Outputs) : Prop where
  inside : o.readStrobe = false → o.chipSelect = false
  selectLow : 0x16 ≤ n ∧ n ≤ 0x1C → o.chipSelect = false
  strobeLow : 0x18 ≤ n ∧ n ≤ 0x1A → o.readStrobe = false
  strobeLowOnly : o.readStrobe = false → 0x18 ≤ n ∧ n ≤ 0x1A ∨ n = 0x1F
  strobeDriven : o.readStrobe = false → dirOf c .readStrobe = .output

theorem State.Inv.window (h : s.Inv) : WindowOk s.cfg s.upc.toNat s.out where
  inside := h.readWindow
  selectLow := h.selectLow
  strobeLow := h.strobeLow
  strobeLowOnly low := (h.strobeLowOnly low).imp_right fun hu => by simp [hu]
  strobeDriven := h.strobeDriven

/-- Outside the window and the abort entry READ_STROBE is high. -/
theorem WindowOk.strobeHigh (h : WindowOk c n o) (h1 : ¬(0x18 ≤ n ∧ n ≤ 0x1A)) (h2 : n ≠ 0x1F) :
    o.readStrobe = true := by
  by_contra low
  rcases h.strobeLowOnly (by simpa using low) with hin | hin
  · exact h1 hin
  · exact h2 hin

/-- With READ_STROBE high the window is in order at every address that does not ask for a line to be low. -/
theorem WindowOk.of_strobeHigh (high : o.readStrobe = true) (hs : 0x16 ≤ n ∧ n ≤ 0x1C → o.chipSelect = false)
    (hn : ¬(0x18 ≤ n ∧ n ≤ 0x1A)) : WindowOk c n o where
  inside low := by simp [high] at low
  selectLow := hs
  strobeLow hin := absurd hin hn
  strobeLowOnly low := by simp [high] at low
  strobeDriven low := by simp [high] at low

/-- At the abort entry the lines may be as they are. -/
theorem WindowOk.atAbortEntry (h : WindowOk c n o) : WindowOk c 0x1F o where
  inside := h.inside
  selectLow hin := by omega
  strobeLow hin := by omega
  strobeLowOnly _ := .inr rfl
  strobeDriven := h.strobeDriven

/-- Going on with the lines as they are, from an address whose micro-op is not the one that moves the window's edge. -/
theorem WindowOk.follows (h : WindowOk c a.toNat o) (hf : Follows a b)
    (hn : a.toNat ∉ [0x15, 0x17, 0x1A, 0x1F]) : WindowOk c b.toNat o := by
  have hedge : (0x16 ≤ b.toNat ∧ b.toNat ≤ 0x1C → 0x16 ≤ a.toNat ∧ a.toNat ≤ 0x1C) ∧
      (0x18 ≤ b.toNat ∧ b.toNat ≤ 0x1A ↔ 0x18 ≤ a.toNat ∧ a.toNat ≤ 0x1A) ∧ a.toNat ≠ 0x1F := by
    have hab := hf.toNat
    simp at hn
    omega
  obtain ⟨hselect, hstrobe, hentry⟩ := hedge
  exact ⟨h.inside, fun hb => h.selectLow (hselect hb), fun hb => h.strobeLow (hstrobe.1 hb),
    fun low => .inl (hstrobe.2 ((h.strobeLowOnly low).resolve_right hentry)), h.strobeDriven⟩

/-- What driving a line does to CHIP_SELECT and READ_STROBE. -/
theorem Outputs.write_window {l : Line} {v : Bool} (h : o.write l v = some o') :
    o'.chipSelect = (if l = .chipSelect then v else o.chipSelect) ∧
      o'.readStrobe = (if l = .readStrobe then v else o.readStrobe) := by
  cases l <;> simp only [Outputs.write, Option.some.injEq, reduceCtorEq] at h <;> subst h <;> exact ⟨rfl, rfl⟩

/-- A SET of the ROM that drives its line keeps the window in order. -/
theorem WindowOk.drive {l : Line} {v : Bool} (h : WindowOk c n o) (hat : standsAt (.set l v) n = true)
    (hd : dirOf c l = .output) (hw : o.write l v = some o') : WindowOk c (n + 1) o' := by
  obtain ⟨hcs, hrs⟩ := Outputs.write_window hw
  cases l with
  | chipSelect =>
    have hn : n = 0x15 ∧ v = false ∨ n ∈ [0x02, 0x1C, 0x20] := by
      cases v <;> simp [standsAt] at hat ⊢ <;> omega
    have high : o.readStrobe = true := h.strobeHigh (by simp at hn; omega) (by simp at hn; omega)
    refine .of_strobeHigh (by simpa [hrs] using high) (fun hin => ?_) (by simp at hn; omega)
    rcases hn with ⟨-, rfl⟩ | hn
    · simp [hcs]
    · simp at hn; omega
  | readStrobe =>
    cases v with
    | true =>
      have hn : n ∈ [0x03, 0x1A, 0x1F] := by simpa [standsAt] using hat
      refine .of_strobeHigh (by simp [hrs]) (fun hin => ?_) (by simp at hn; omega)
      simpa [hcs] using h.selectLow (by simp at hn; omega)
    | false =>
      obtain rfl : n = 0x17 := by simpa [standsAt] using hat
      have low : o'.chipSelect = false := by simpa [hcs] using h.selectLow (by omega)
      exact ⟨fun _ => low, fun _ => low, fun _ => by simp [hrs], fun _ => .inl (by omega), fun _ => hd⟩
  | reset | convst | companion =>
    simp [standsAt] at hat
    have high : o.readStrobe = true := h.strobeHigh (by omega) (by omega)
    exact .of_strobeHigh (by simpa [hrs] using high) (by omega) (by omega)
  | busy | dataLow | dataHigh => simp [standsAt] at hat

/-- A SET of the abort routine that skips its line keeps the window in order: a low READ_STROBE is one that the
routine's first SET can drive. -/
theorem WindowOk.skip {l : Line} {v : Bool} (h : WindowOk c n o) (hat : standsAt (.set l v) n = true)
    (hd : dirOf c l = .input) (hn : 0x1F ≤ n) : WindowOk c (n + 1) o := by
  have high : o.readStrobe = true := by
    by_cases hl : l = .readStrobe
    · by_contra low
      have hout := h.strobeDriven (by simpa using low)
      rw [← hl, hd] at hout
      cases hout
    · refine h.strobeHigh (by omega) fun hentry => hl ?_
      subst hentry
      cases l <;> cases v <;> simp [standsAt] at hat ⊢
  exact .of_strobeHigh high (by omega) (by omega)

/-! ## Five kinds of moves -/

/-- The address stays: a turn outside the Sequencer or a held one, a wait that begins, a WCMD that rests or refuses. -/
structure Stays (s t : State) : Prop where
  cfg : t.cfg = s.cfg
  rom : t.rom = s.rom
  upc : t.upc = s.upc
  out : t.out = s.out
  pollCnt : t.pollCnt = s.pollCnt
  aborting : t.aborting = s.aborting
  sampleValid : t.sampleValid = s.sampleValid
  waiting : t.waiting = true → s.waiting = true ∨ ∃ k b, romOp s.cfg s.upc = .ok (.wait k b)
  waitCnt : t.waiting = false → t.waitCnt = 0#32
  command : t.err = s.err ∧ t.cmdLat = s.cmdLat ∨ s.upc.toNat ≤ 1

/-- A command is accepted and its routine begins (`43_control_ops.md` R178). -/
structure Begins (s t : State) : Prop where
  cfg : t.cfg = s.cfg
  rom : t.rom = s.rom
  out : t.out = s.out
  aborting : t.aborting = s.aborting
  waiting : t.waiting = false
  waitCnt : t.waitCnt = 0#32
  sampleValid : t.sampleValid = false
  entry : s.upc.toNat ≤ 1 ∧ t.upc = 0x02#6 ∧ t.cmdLat = 0b01#2 ∧ t.pollCnt = s.pollCnt ∨
    s.upc = 0x01#6 ∧ t.upc = 0x0E#6 ∧ t.cmdLat = 0b10#2 ∧ t.pollCnt = 0#32

/-- A routine goes on. -/
structure GoesOn (s t : State) : Prop where
  cfg : t.cfg = s.cfg
  rom : t.rom = s.rom
  follows : Follows s.upc t.upc
  aborting : t.aborting = s.aborting
  err : t.err = s.err
  cmdLat : t.cmdLat = s.cmdLat
  waiting : t.waiting = false
  waitCnt : t.waitCnt = 0#32
  sampleValid : t.sampleValid = s.sampleValid ∨ t.upc = 0x1E#6
  polls : t.pollCnt = s.pollCnt ∨ t.pollCnt.toNat ≤ s.cfg.maxBusyPolls.toNat ∧
    (t.upc ≠ 0x13#6 → t.pollCnt.toNat < s.cfg.maxBusyPolls.toNat)
  window : WindowOk s.cfg t.upc.toNat t.out

/-- An error is taken (`60_exceptions.md` R196). -/
structure Raises (s t : State) : Prop where
  cfg : t.cfg = s.cfg
  rom : t.rom = s.rom
  point : MayRaiseAt s.upc.toNat
  upc : t.upc = 0x1F#6
  aborting : t.aborting = true
  err : t.err ≠ .none
  waiting : t.waiting = false
  waitCnt : t.waitCnt = 0#32
  sampleValid : t.sampleValid = s.sampleValid
  pollCnt : t.pollCnt.toNat ≤ s.cfg.maxBusyPolls.toNat
  out : t.out = s.out

/-- A routine returns to a quiescent address (`43_control_ops.md` R181, R182). -/
structure Returns (s t : State) : Prop where
  cfg : t.cfg = s.cfg
  rom : t.rom = s.rom
  out : t.out = s.out
  pollCnt : t.pollCnt = s.pollCnt
  aborting : t.aborting = false
  waiting : t.waiting = false
  waitCnt : t.waitCnt = 0#32
  sampleValid : t.sampleValid = s.sampleValid
  exit : (s.upc = 0x0D#6 ∨ s.upc = 0x1E#6) ∧ t.upc = 0x01#6 ∨
    s.upc = 0x24#6 ∧ t.upc = if s.cmdLat = 0b01#2 then 0x00#6 else 0x01#6

/-- All that a turn can do without HWRESET. -/
inductive Moves (s t : State) : Prop where
  | stays (h : Stays s t)
  | begins (h : Begins s t)
  | goesOn (h : GoesOn s t)
  | raises (h : Raises s t)
  | returns (h : Returns s t)

/-! ## Each kind keeps the invariant -/

theorem Stays.inv (m : Stays s t) (h : s.Inv) : t.Inv where
  specRom := m.rom.trans h.specRom
  legal := by rw [m.cfg]; exact h.legal
  upcUsed := by rw [m.upc]; exact h.upcUsed
  waitingAtWait hw := by
    rw [m.cfg, m.upc]
    exact (m.waiting hw).elim h.waitingAtWait id
  notWaiting := m.waitCnt
  abortingIff := by rw [m.aborting, State.within, m.upc]; exact h.abortingIff
  pollBound := by rw [m.pollCnt, m.cfg]; exact h.pollBound
  pollRoom := by rw [m.pollCnt, m.cfg, State.within, m.upc]; exact h.pollRoom
  abortError ha := by
    rw [m.aborting] at ha
    rcases m.command with ⟨herr, -⟩ | hq
    · rw [herr]
      exact h.abortError ha
    · have := h.abortingIff.1 ha
      omega
  sampleMeaningful := by rw [m.sampleValid, m.upc]; exact h.sampleMeaningful
  resetLatched hin := by
    rw [State.within, m.upc] at hin
    rcases m.command with ⟨-, hlat⟩ | hq
    · rw [hlat]
      exact h.resetLatched hin
    · omega
  triggerLatched hin := by
    rw [State.within, m.upc] at hin
    rcases m.command with ⟨-, hlat⟩ | hq
    · rw [hlat]
      exact h.triggerLatched hin
    · omega
  readWindow := by rw [m.out]; exact h.readWindow
  selectLow := by rw [m.out, State.within, m.upc]; exact h.selectLow
  strobeLow := by rw [m.out, State.within, m.upc]; exact h.strobeLow
  strobeLowOnly := by rw [m.out, State.within, m.upc]; exact h.strobeLowOnly
  strobeDriven := by rw [m.out, m.cfg]; exact h.strobeDriven

/-- The invariant of a state that is not in a wait, with the clauses about the lines taken together. -/
theorem State.Inv.of_notWaiting (specRom : t.rom = []) (legal : t.cfg.Legal) (waiting : t.waiting = false)
    (waitCnt : t.waitCnt = 0#32) (window : WindowOk t.cfg t.upc.toNat t.out) (upcUsed : t.upc.toNat ≤ 0x24)
    (abortingIff : t.aborting = true ↔ t.within 0x1F 0x24) (abortError : t.aborting = true → t.err ≠ .none)
    (pollBound : t.pollCnt.toNat ≤ t.cfg.maxBusyPolls.toNat)
    (pollRoom : t.within 0x0E 0x12 → t.pollCnt.toNat < t.cfg.maxBusyPolls.toNat)
    (sampleMeaningful : t.sampleValid = true → t.upc = 0x1E#6 ∨ t.upc = 0x01#6)
    (resetLatched : t.within 0x02 0x0D → t.cmdLat = 0b01#2)
    (triggerLatched : t.within 0x0E 0x1E → t.cmdLat = 0b10#2) : t.Inv where
  specRom := specRom
  legal := legal
  upcUsed := upcUsed
  waitingAtWait hw := by simp [waiting] at hw
  notWaiting _ := waitCnt
  abortingIff := abortingIff
  pollBound := pollBound
  pollRoom := pollRoom
  abortError := abortError
  sampleMeaningful := sampleMeaningful
  resetLatched := resetLatched
  triggerLatched := triggerLatched
  readWindow := window.inside
  selectLow := window.selectLow
  strobeLow := window.strobeLow
  strobeLowOnly low := (window.strobeLowOnly low).imp_right BitVec.eq_of_toNat_eq
  strobeDriven := window.strobeDriven

/-- The bound of a legal configuration leaves room for a first poll. -/
theorem maxBusyPolls_pos (h : c.Legal) : 0 < c.maxBusyPolls.toNat :=
  Nat.pos_of_ne_zero fun hz => h (BitVec.eq_of_toNat_eq hz)

/-- Before the abort routine no error is being handled. -/
theorem State.Inv.not_aborting (h : s.Inv) (hu : s.upc.toNat < 0x1F) : s.aborting = false := by
  rw [← Bool.not_eq_true, h.abortingIff]
  omega

theorem Begins.inv (m : Begins s t) (h : s.Inv) : t.Inv := by
  have hupc : s.upc.toNat ≤ 1 ∧ (t.upc = 0x02#6 ∨ t.upc = 0x0E#6) := by
    rcases m.entry with ⟨hq, ht, -⟩ | ⟨hq, ht, -⟩
    · exact ⟨hq, .inl ht⟩
    · exact ⟨by simp [hq], .inr ht⟩
  obtain ⟨hq, ht⟩ := hupc
  have ha : t.aborting = false := m.aborting.trans (h.not_aborting (by omega))
  have high : t.out.readStrobe = true := by
    rw [m.out]
    exact h.window.strobeHigh (by omega) (by omega)
  apply State.Inv.of_notWaiting (m.rom.trans h.specRom) (m.cfg ▸ h.legal) m.waiting m.waitCnt
  case window => rcases ht with ht | ht <;> exact .of_strobeHigh high (by simp [ht]) (by simp [ht])
  case upcUsed => rcases ht with ht | ht <;> simp [ht]
  case abortingIff => rcases ht with ht | ht <;> simp [ha, State.within, ht]
  case abortError => simp [ha]
  case sampleMeaningful => simp [m.sampleValid]
  all_goals rcases m.entry with ⟨-, hu, hlat, hp⟩ | ⟨-, hu, hlat, hp⟩
  all_goals simp [State.within, m.cfg, hu, hlat, hp, h.pollBound, maxBusyPolls_pos h.legal]

theorem GoesOn.inv (m : GoesOn s t) (h : s.Inv) : t.Inv := by
  have hab := m.follows.toNat
  have hs : s.sampleValid ≠ true := fun hv => by
    rcases h.sampleMeaningful hv with hu | hu <;> simp [hu, InsideRoutine] at hab
  apply State.Inv.of_notWaiting (m.rom.trans h.specRom) (m.cfg ▸ h.legal) m.waiting m.waitCnt (m.cfg ▸ m.window)
  case upcUsed => omega
  case abortingIff =>
    rw [m.aborting, h.abortingIff]
    omega
  case abortError => rw [m.aborting, m.err]; exact h.abortError
  case pollBound =>
    rw [m.cfg]
    exact m.polls.elim (fun hp => hp ▸ h.pollBound) (·.1)
  case pollRoom =>
    intro hin
    rw [m.cfg]
    rcases m.polls with hp | ⟨-, hroom⟩
    · rw [hp]
      exact h.pollRoom (by omega)
    · exact hroom fun hu => by simp [State.within, hu] at hin
  case sampleMeaningful => exact fun hv => .inl (m.sampleValid.resolve_left fun heq => hs (heq ▸ hv))
  case resetLatched => exact fun hin => m.cmdLat ▸ h.resetLatched (by omega)
  case triggerLatched => exact fun hin => m.cmdLat ▸ h.triggerLatched (by omega)

theorem Raises.inv (m : Raises s t) (h : s.Inv) : t.Inv := by
  have hs : s.sampleValid ≠ true := fun hv => by
    have hp := m.point
    rcases h.sampleMeaningful hv with hu | hu <;> simp [hu, MayRaiseAt] at hp
  apply State.Inv.of_notWaiting (m.rom.trans h.specRom) (m.cfg ▸ h.legal) m.waiting m.waitCnt
  case window =>
    rw [m.cfg, m.upc, m.out]
    exact h.window.atAbortEntry
  case upcUsed => simp [m.upc]
  case abortingIff => simp [m.aborting, State.within, m.upc]
  case abortError => exact fun _ => m.err
  case pollBound => rw [m.cfg]; exact m.pollCnt
  case sampleMeaningful => exact fun hv => absurd (m.sampleValid ▸ hv) hs
  all_goals simp [State.within, m.upc]

theorem Returns.inv (m : Returns s t) (h : s.Inv) : t.Inv := by
  have hexit : (s.upc = 0x0D#6 ∨ s.upc = 0x1E#6 ∨ s.upc = 0x24#6) ∧ (t.upc = 0x00#6 ∨ t.upc = 0x01#6) := by
    rcases m.exit with ⟨hu | hu, ht⟩ | ⟨hu, ht⟩
    · exact ⟨.inl hu, .inr ht⟩
    · exact ⟨.inr (.inl hu), .inr ht⟩
    · exact ⟨.inr (.inr hu), by rw [ht]; split <;> simp⟩
  obtain ⟨hs, ht⟩ := hexit
  have high : t.out.readStrobe = true := by
    rw [m.out]
    rcases hs with hu | hu | hu <;> exact h.window.strobeHigh (by simp [hu]) (by simp [hu])
  apply State.Inv.of_notWaiting (m.rom.trans h.specRom) (m.cfg ▸ h.legal) m.waiting m.waitCnt
  case window => rcases ht with ht | ht <;> exact .of_strobeHigh high (by simp [ht]) (by simp [ht])
  case abortError => simp [m.aborting]
  case pollBound => rw [m.pollCnt, m.cfg]; exact h.pollBound
  case sampleMeaningful =>
    intro hv
    rcases h.sampleMeaningful (m.sampleValid ▸ hv) with hu | hu
    · exact .inr (by simpa [hu] using m.exit)
    · simp [hu] at hs
  all_goals rcases ht with ht | ht <;> simp [State.within, ht, m.aborting]

theorem Moves.inv (m : Moves s t) (h : s.Inv) : t.Inv := by
  cases m with
  | stays m => exact m.inv h
  | begins m => exact m.inv h
  | goesOn m => exact m.inv h
  | raises m => exact m.inv h
  | returns m => exact m.inv h

end Sys2Proof.Machine
end

section
/-! PROOFS. The protocol invariant (`10_state.md` R56): every turn is one of the five kinds of moves, or HWRESET. -/

namespace Sys2Proof.Machine

variable {s t : State} {i : Instr}

/-! ## The instructions of the ROM -/

/-- Where no WAIT stands no wait is in progress. -/
theorem State.Inv.notWaiting_of_op (h : s.Inv) (hop : romOp s.cfg s.upc = .ok i) (hi : ∀ k b, i ≠ .wait k b) :
    s.waiting = false ∧ s.waitCnt = 0#32 := by
  have hw : s.waiting = false := by
    by_contra hw
    obtain ⟨k, b, hwait⟩ := h.waitingAtWait (by simpa using hw)
    rw [hop, Except.ok.injEq] at hwait
    exact hi k b hwait
  exact ⟨hw, h.notWaiting hw⟩

/-- What the invariant speaks of is the same, but for the address and `sample_valid`. -/
structure SameControl (s t : State) : Prop where
  cfg : t.cfg = s.cfg
  rom : t.rom = s.rom
  out : t.out = s.out
  pollCnt : t.pollCnt = s.pollCnt
  aborting : t.aborting = s.aborting
  err : t.err = s.err
  cmdLat : t.cmdLat = s.cmdLat
  waiting : t.waiting = s.waiting
  waitCnt : t.waitCnt = s.waitCnt

/-- Nothing moves. -/
theorem State.Inv.rests (h : s.Inv) (m : SameControl s t) (hu : t.upc = s.upc)
    (hv : t.sampleValid = s.sampleValid) : Moves s t :=
  .stays ⟨m.cfg, m.rom, hu, m.out, m.pollCnt, m.aborting, hv, fun hw => .inl (m.waiting ▸ hw),
    fun hw => m.waitCnt.trans (h.notWaiting (m.waiting ▸ hw)), .inl ⟨m.err, m.cmdLat⟩⟩

/-- NOP, SAMPLE and a CAPTURE without an error go on to the next address. -/
theorem State.Inv.goesOn_next (h : s.Inv) (hop : romOp s.cfg s.upc = .ok i)
    (hi : i = .nop ∨ i = .capture0 ∨ i = .capture1 ∨ i = .sample) (m : SameControl s t) (hu : t.upc = s.upc + 1#6)
    (hv : t.sampleValid = s.sampleValid ∨ t.upc = 0x1E#6) : Moves s t := by
  have hat := romOp_standsAt hop
  obtain ⟨hw, hc⟩ := h.notWaiting_of_op hop (by rintro k b rfl; simp at hi)
  have hin : InsideRoutine s.upc.toNat :=
    insideRoutine_of_standsAt hat (by rintro rfl; simp at hi) (by rintro n rfl; simp at hi) (by rintro rfl; simp at hi)
  have hf : Follows s.upc t.upc := .inl ⟨hin, hu⟩
  have hwin := h.window.follows hf (not_windowEdge_of_standsAt hat (by rintro l v rfl; simp at hi))
  exact .goesOn ⟨m.cfg, m.rom, hf, m.aborting, m.err, m.cmdLat, m.waiting.trans hw, m.waitCnt.trans hc, hv,
    .inl m.pollCnt, m.out ▸ hwin⟩

/-- Taking an error where one may be raised. -/
theorem State.Inv.raises (h : s.Inv) (hp : MayRaiseAt s.upc.toNat) (l : Line) :
    Raises s (s.raise .misconfiguredLine l) :=
  ⟨rfl, rfl, hp, rfl, rfl, by simp, rfl, rfl, rfl, h.pollBound, rfl⟩

theorem set_moves {l : Line} {v : Bool} (h : s.Inv) (hop : romOp s.cfg s.upc = .ok (.set l v))
    (he : execSet l v s = .next t) : Moves s t := by
  have hat := romOp_standsAt hop
  obtain ⟨hw, hc⟩ := h.notWaiting_of_op hop (by simp)
  have hin := insideRoutine_of_standsAt hat (by simp) (by simp) (by simp)
  have hf : Follows s.upc (s.upc + 1#6) := .inl ⟨hin, rfl⟩
  have hnext : (s.upc + 1#6).toNat = s.upc.toNat + 1 := by have := hf.toNat; bv_omega
  rcases execSet_cases he with ⟨hd, ha, rfl⟩ | ⟨-, ha, rfl⟩ | ⟨hd, o, hwr, rfl⟩
  · have hwin := h.window.skip hat hd (h.abortingIff.1 ha).1
    exact .goesOn ⟨rfl, rfl, hf, rfl, rfl, rfl, hw, hc, .inl rfl, .inl rfl, hnext ▸ hwin⟩
  · have hlt : s.upc.toNat < 0x1F := by
      by_contra hge
      simp [h.abortingIff.2 ⟨by omega, h.upcUsed⟩] at ha
    exact .raises (h.raises (mayRaiseAt_of_standsAt hat hlt (.inl ⟨l, v, rfl⟩)) l)
  · have hwin := h.window.drive hat hd hwr
    exact .goesOn ⟨rfl, rfl, hf, rfl, rfl, rfl, hw, hc, .inl rfl, .inl rfl, hnext ▸ hwin⟩

theorem wait_moves {k : BitVec 3} {b : Bool} (h : s.Inv) (hop : romOp s.cfg s.upc = .ok (.wait k b))
    (he : execWait k b s = .next t) : Moves s t := by
  have hat := romOp_standsAt hop
  have hf : Follows s.upc (s.afterWait b) := by
    cases b with
    | false => exact .inl ⟨insideRoutine_of_standsAt hat (by simp) (by simp) (by simp), rfl⟩
    | true =>
      have hu : s.upc = 0x12#6 := BitVec.eq_of_toNat_eq (by simpa [standsAt] using hat)
      exact .inr (.inr ⟨hu, by simp [State.afterWait, hu]⟩)
  have hwin := h.window.follows hf (not_windowEdge_of_standsAt hat (by simp))
  obtain ⟨n, -, ⟨-, hc, rfl⟩ | ⟨hw, -, rfl⟩ | ⟨hw, -, rfl⟩ | ⟨-, -, rfl⟩⟩ := execWait_cases he
  · exact .goesOn ⟨rfl, rfl, hf, rfl, rfl, rfl, rfl, hc, .inl rfl, .inl rfl, hwin⟩
  · exact h.rests ⟨rfl, rfl, rfl, rfl, rfl, rfl, rfl, rfl, rfl⟩ rfl rfl
  · exact .goesOn ⟨rfl, rfl, hf, rfl, rfl, rfl, hw, h.notWaiting hw, .inl rfl, .inl rfl, hwin⟩
  · exact .stays ⟨rfl, rfl, rfl, rfl, rfl, rfl, rfl, fun _ => .inr ⟨k, b, hop⟩, by simp, .inl ⟨rfl, rfl⟩⟩

theorem poll_moves {l : Line} {v : Bool} (h : s.Inv) (hop : romOp s.cfg s.upc = .ok (.poll l v))
    (he : execPoll l v s = .next t) : Moves s t := by
  have hat := romOp_standsAt hop
  obtain ⟨hw, hc⟩ := h.notWaiting_of_op hop (by simp)
  have hu : s.upc = 0x11#6 := by
    apply BitVec.eq_of_toNat_eq
    cases l <;> cases v <;> simp [standsAt] at hat
    exact hat
  have hp : MayRaiseAt s.upc.toNat := by simp [hu, MayRaiseAt]
  have hedge := not_windowEdge_of_standsAt hat (by simp)
  have hroom : s.pollCnt.toNat < s.cfg.maxBusyPolls.toNat := h.pollRoom (by simp [State.within, hu])
  have hcount : (s.pollCnt + 1#32).toNat = s.pollCnt.toNat + 1 := by bv_omega
  have hbound : (s.pollCnt + 1#32).toNat ≤ s.cfg.maxBusyPolls.toNat := by omega
  rcases execPoll_cases he with ⟨-, rfl⟩ | ⟨-, ⟨-, rfl⟩ | ⟨-, -, rfl⟩ | ⟨-, hne, rfl⟩⟩
  · exact .raises (h.raises hp l)
  · have hf : Follows s.upc (s.upc + 2#6) := .inr (.inl ⟨hu, by simp [hu]⟩)
    exact .goesOn ⟨rfl, rfl, hf, rfl, rfl, rfl, hw, hc, .inl rfl, .inr ⟨hbound, fun h13 => by simp [hu] at h13⟩,
      h.window.follows hf hedge⟩
  · exact .raises ⟨rfl, rfl, hp, rfl, rfl, by simp, rfl, rfl, rfl, hbound, rfl⟩
  · have hf : Follows s.upc (s.upc + 1#6) := .inl ⟨by simp [hu, InsideRoutine], rfl⟩
    have hlt : (s.pollCnt + 1#32).toNat < s.cfg.maxBusyPolls.toNat :=
      lt_of_le_of_ne hbound fun heq => hne (BitVec.eq_of_toNat_eq heq)
    exact .goesOn ⟨rfl, rfl, hf, rfl, rfl, rfl, hw, hc, .inl rfl, .inr ⟨hbound, fun _ => hlt⟩,
      h.window.follows hf hedge⟩

/-- A presented command begins its routine or leaves the address. -/
theorem presentCommand_moves (h : s.Inv) (k : CmdCode) (hw : s.waiting = false ∧ s.waitCnt = 0#32) :
    Moves s (s.presentCommand k) := by
  have hready : s.cmdReady = true → s.upc.toNat ≤ 1 := fun hr => by
    rcases State.cmdReady_eq_true.1 hr with hu | hu <;> simp [hu]
  rcases s.presentCommand_cases k with ⟨-, heq⟩ | ⟨hr, hk, heq⟩ | ⟨hu, hk, heq⟩ | ⟨hr, -, -, heq⟩ <;> rw [heq]
  · exact h.rests ⟨rfl, rfl, rfl, rfl, rfl, rfl, rfl, rfl, rfl⟩ rfl rfl
  · exact .begins ⟨rfl, rfl, rfl, rfl, hw.1, hw.2, rfl, .inl ⟨hready hr, rfl, hk, rfl⟩⟩
  · exact .begins ⟨rfl, rfl, rfl, rfl, hw.1, hw.2, rfl, .inr ⟨hu, rfl, hk, rfl⟩⟩
  · exact .stays ⟨rfl, rfl, rfl, rfl, rfl, rfl, rfl, .inl, h.notWaiting, .inr (hready hr)⟩

/-- Every micro-op of the spec's ROM moves in one of the five ways. -/
theorem exec_moves (h : s.Inv) (hop : romOp s.cfg s.upc = .ok i) (he : exec i s = .next t) : Moves s t := by
  have hat := romOp_standsAt hop
  cases i with
  | set l v => exact set_moves h hop he
  | wait k b => exact wait_moves h hop he
  | poll l v => exact poll_moves h hop he
  | nop =>
    obtain rfl : s.advance = t := Host.Outcome.next.inj he
    exact h.goesOn_next hop (by simp) ⟨rfl, rfl, rfl, rfl, rfl, rfl, rfl, rfl, rfl⟩ rfl (.inl rfl)
  | capture0 =>
    rcases execCapture0_cases he with ⟨m, -, rfl⟩ | ⟨-, rfl⟩
    · exact .raises (h.raises (mayRaiseAt_of_standsAt hat (by simp [standsAt] at hat; omega) (by simp)) m)
    · exact h.goesOn_next hop (by simp) ⟨rfl, rfl, rfl, rfl, rfl, rfl, rfl, rfl, rfl⟩ rfl (.inl rfl)
  | capture1 =>
    rcases execCapture1_cases he with ⟨m, -, rfl⟩ | ⟨-, rfl⟩
    · exact .raises (h.raises (mayRaiseAt_of_standsAt hat (by simp [standsAt] at hat; omega) (by simp)) m)
    · exact h.goesOn_next hop (by simp) ⟨rfl, rfl, rfl, rfl, rfl, rfl, rfl, rfl, rfl⟩ rfl (.inl rfl)
  | sample =>
    obtain rfl := Host.Outcome.next.inj he
    have hu : s.upc = 0x1D#6 := BitVec.eq_of_toNat_eq (by simpa [standsAt] using hat)
    exact h.goesOn_next hop (by simp) ⟨rfl, rfl, rfl, rfl, rfl, rfl, rfl, rfl, rfl⟩ rfl (.inr (by simp [hu]))
  | wcmd =>
    rcases execWcmd_cases he with ⟨-, rfl⟩ | ⟨-, rfl⟩
    · exact h.rests ⟨rfl, rfl, rfl, rfl, rfl, rfl, rfl, rfl, rfl⟩ rfl rfl
    · exact presentCommand_moves h _ (h.notWaiting_of_op hop (by simp))
  | ret m =>
    obtain ⟨hw, hc⟩ := h.notWaiting_of_op hop (by simp)
    obtain rfl : s.goto (m.setWidth 6) = t := Host.Outcome.next.inj he
    have hused := h.upcUsed
    obtain ⟨rfl, hu⟩ : m = 1 ∧ (s.upc.toNat = 0x0D ∨ s.upc.toNat = 0x1E) := by
      simp only [standsAt] at hat
      split at hat <;> simp at hat
      · exact ⟨by assumption, hat⟩
      · omega
    have hns : s.aborting = false := h.not_aborting (by omega)
    have hend : s.upc = 0x0D#6 ∨ s.upc = 0x1E#6 := hu.imp BitVec.eq_of_toNat_eq BitVec.eq_of_toNat_eq
    exact .returns ⟨rfl, rfl, rfl, rfl, hns, hw, hc, rfl, .inl ⟨hend, rfl⟩⟩
  | ret2 =>
    obtain ⟨hw, hc⟩ := h.notWaiting_of_op hop (by simp)
    obtain rfl : s.endAbort = t := Host.Outcome.next.inj he
    have hu : s.upc = 0x24#6 := BitVec.eq_of_toNat_eq (by simpa [standsAt] using hat)
    exact .returns ⟨rfl, rfl, rfl, rfl, rfl, hw, hc, rfl, .inr ⟨hu, rfl⟩⟩
  | cmdReset | cmdTriggerAndRead => simp [standsAt] at hat

/-! ## The turns -/

/-- Beginning a turn moves nothing that the invariant speaks of. -/
theorem State.Inv.beginTurn (h : s.Inv) : s.beginTurn.Inv := by
  refine Stays.inv ?_ h
  constructor <;> simp +contextual [h.notWaiting]

/-- A tick, and new levels on the input ports, leave the address. -/
theorem State.Inv.tick_moves (h : s.Inv) : Moves s s.tick := by
  rw [State.tick_eq]
  split
  next hheld =>
    have hw := (State.held_eq_true.1 hheld).1
    exact .stays ⟨rfl, rfl, rfl, rfl, rfl, rfl, rfl, .inl, fun hn => by simp [hw] at hn, .inl ⟨rfl, rfl⟩⟩
  next => exact h.rests ⟨rfl, rfl, rfl, rfl, rfl, rfl, rfl, rfl, rfl⟩ rfl rfl

/-- All that a step can do to a state that meets the invariant: HWRESET, or one of the five kinds of moves from the
state in which the turn has begun. -/
theorem State.Inv.step_cases (h : s.Inv) (hs : step s = .next t) :
    (¬s.noHwReset ∧ ∃ u : State, u.rom = [] ∧ u.cfg.Legal ∧ t = u.hwReset) ∨ Moves s.beginTurn t := by
  have hb := h.beginTurn
  rcases Machine.step_cases hs with ⟨-, rfl⟩ | ⟨-, hr, rfl⟩ | ⟨-, -, -, rfl⟩ | ⟨-, -, -, i, hi, he⟩
  · rcases s.beginTurn.outsideTurn_cases s.nextTurn with ⟨p, ht, hreset⟩ | ⟨-, -, ht⟩ | ⟨p, ht, -⟩ <;> rw [ht]
    · refine .inl ⟨fun hno => ?_, { s.beginTurn with pins := p }, hb.specRom, hb.legal, rfl⟩
      rcases hreset with hr | hup
      · simp [hno.1] at hr
      · exact hno.2 hup
    · exact .inr hb.tick_moves
    · exact .inr (hb.rests ⟨rfl, rfl, rfl, rfl, rfl, rfl, rfl, rfl, rfl⟩ rfl rfl)
  · exact .inl ⟨fun hno => by simp [hno.1] at hr, _, hb.specRom, hb.legal, rfl⟩
  · exact .inr (hb.rests ⟨rfl, rfl, rfl, rfl, rfl, rfl, rfl, rfl, rfl⟩ rfl rfl)
  · refine .inr (exec_moves hb ?_ he)
    rw [h.specRom, Rom.word_nil] at hi
    rw [State.beginTurn_cfg, State.beginTurn_upc]
    exact hi

/-! ## The invariant -/

/-- The values of R55 meet the invariant. -/
theorem State.AfterReset.inv (h : s.AfterReset) (legal : s.cfg.Legal) : s.Inv := by
  apply State.Inv.of_notWaiting h.rom legal h.waiting h.waitCnt
  case window => exact .of_strobeHigh (by simp [h.out]) (by simp [h.upc]) (by simp [h.upc])
  all_goals simp [State.within, h.upc, h.aborting, h.pollCnt, h.sampleValid]

/-- Settles O49. -/
theorem protocolInvariantAfterReset : Obligations.ProtocolInvariantAfterReset := by
  intro s legal h
  exact h.inv legal

/-- Settles O50: HWRESET leads to a state right after reset; every other step is one of the five kinds of moves. -/
theorem protocolInvariantIsKept : Obligations.ProtocolInvariantIsKept := by
  intro s t h hs
  rcases h.step_cases hs with ⟨-, u, hrom, hlegal, rfl⟩ | hmove
  · exact (State.hwReset_afterReset hrom).inv hlegal
  · exact hmove.inv h.beginTurn

/-- The invariant holds in every reachable state. -/
theorem Reachable.inv (h : Reachable s) : s.Inv := by
  induction h with
  | reset legal after => exact after.inv legal
  | step _ hs ih => exact protocolInvariantIsKept _ _ ih hs

theorem SeqState.code_le (p : SeqState) : p.code.toNat ≤ 5 := by cases p <;> decide

theorem ErrKind.code_le (e : ErrKind) : e.code.toNat ≤ 3 := by cases e <;> decide

/-- Settles O51: the clauses of R56 are clauses of the invariant, or hold of the codes as such. -/
theorem reachableStatesMeetR56 : Obligations.ReachableStatesMeetR56 := by
  intro s hs
  have h := hs.inv
  exact ⟨h.upcUsed, h.waitingAtWait, h.abortingIff, h.pollBound, h.abortError, h.sampleMeaningful,
    s.seqState.code_le, s.err.code_le⟩

/-! ## Transitions of SequencerState -/

/-- On the way through a routine SequencerState stays, or goes on as R32 allows; the abort routine is one phase. -/
theorem phase_of_follows {a b : StepAddr} (h : Follows a b) :
    phase b = phase a ∨ ((phase a).allowed (phase b) = true ∧ phase a ≠ .aborting) := by
  have key : ∀ a : StepAddr, InsideRoutine a.toNat →
      phase (a + 1#6) = phase a ∨ ((phase a).allowed (phase (a + 1#6)) = true ∧ phase a ≠ .aborting) := by decide
  rcases h with ⟨hin, rfl⟩ | ⟨rfl, rfl⟩ | ⟨rfl, rfl⟩
  · exact key a hin
  · decide
  · decide

/-- Where an error can be raised the abort is allowed. -/
theorem phase_of_mayRaiseAt {a : StepAddr} (h : MayRaiseAt a.toNat) :
    (phase a).allowed .aborting = true ∧ phase a ≠ .aborting := by
  have key : ∀ a : StepAddr, MayRaiseAt a.toNat → (phase a).allowed .aborting = true ∧ phase a ≠ .aborting := by
    decide
  exact key a h

/-- At the quiescent addresses a reset may begin. -/
theorem phase_of_quiescent {a : StepAddr} (h : a.toNat ≤ 1) :
    (phase a).allowed .resetting = true ∧ phase a ≠ .aborting := by
  have key : ∀ a : StepAddr, a.toNat ≤ 1 → (phase a).allowed .resetting = true ∧ phase a ≠ .aborting := by decide
  exact key a h

/-- Each of the five kinds of moves leaves SequencerState or takes a transition of R32. -/
theorem Moves.seqState (m : Moves s t) :
    t.seqState = s.seqState ∨
    (s.seqState.allowed t.seqState = true ∧
      (s.seqState = .aborting → (t.seqState = .idle ↔ s.cmdLat = 0b01#2))) := by
  unfold State.seqState
  cases m with
  | stays m => exact .inl (by rw [m.upc])
  | begins m =>
    rcases m.entry with ⟨hq, ht, -⟩ | ⟨hs, ht, -⟩
    · obtain ⟨hallowed, hne⟩ := phase_of_quiescent hq
      exact .inr ⟨by rw [ht]; exact hallowed, fun ha => absurd ha hne⟩
    · exact .inl (by rw [hs, ht]; rfl)
  | goesOn m => exact (phase_of_follows m.follows).imp_right fun ⟨hallowed, hne⟩ => ⟨hallowed, fun ha => absurd ha hne⟩
  | raises m =>
    obtain ⟨hallowed, hne⟩ := phase_of_mayRaiseAt m.point
    exact .inr ⟨by rw [m.upc]; exact hallowed, fun ha => absurd ha hne⟩
  | returns m =>
    rcases m.exit with ⟨hs | hs, ht⟩ | ⟨hs, ht⟩
    · exact .inr (by rw [hs, ht]; exact ⟨rfl, fun ha => absurd ha (by decide)⟩)
    · exact .inr (by rw [hs, ht]; exact ⟨rfl, fun ha => absurd ha (by decide)⟩)
    · rw [hs, ht]
      by_cases hlat : s.cmdLat = 0b01#2
      · rw [if_pos hlat]
        exact .inr ⟨rfl, fun _ => by simp [hlat, phase]⟩
      · rw [if_neg hlat]
        exact .inr ⟨rfl, fun _ => by simp [hlat, phase]⟩

/-- Settles O54: without HWRESET a step is one of the five kinds of moves. -/
theorem sequencerStateMovesAsR32Allows : Obligations.SequencerStateMovesAsR32Allows := by
  intro s t h hno hs
  rcases h.step_cases hs with ⟨hreset, -⟩ | hmove
  · exact absurd hno hreset
  · simpa [State.seqState] using hmove.seqState

end Sys2Proof.Machine
end

section
/-! PROOFS. The step ROM and the configuration: nothing writes them (`20_memory.md` R72), placing a word keeps the ROM's
list canonical (log 3, log 11), and every fetch finds a word (`20_memory.md` R62). -/

namespace Sys2Proof.Machine

variable {s t : State} {i : Instr}

/-! ## No instruction and no step writes the step ROM -/

/-- The step ROM and the configuration are those of `s`. -/
structure SameMemory (s t : State) : Prop where
  cfg : t.cfg = s.cfg
  rom : t.rom = s.rom

/-- Beyond the step ROM and the configuration, the input ports and the schedule are those of `s` (`00_scope.md` R13,
`10_state.md` R46; log 1). -/
structure SameSurroundings (s t : State) : Prop extends SameMemory s t where
  pins : t.pins = s.pins
  agenda : t.agenda = s.agenda
  turnNo : t.turnNo = s.turnNo

/-- With one ROM list and one configuration, every address reads alike. -/
theorem SameMemory.romByte (m : SameMemory s t) (a : Nat) : t.romByte a = s.romByte a := by
  rw [State.romByte, m.cfg, m.rom, State.romByte]

theorem State.presentCommand_sameSurroundings (k : CmdCode) (s : State) :
    SameSurroundings s (s.presentCommand k) := by
  rcases s.presentCommand_cases k with ⟨-, h⟩ | ⟨-, -, h⟩ | ⟨-, -, h⟩ | ⟨-, -, -, h⟩ <;>
    rw [h] <;> exact ⟨⟨rfl, rfl⟩, rfl, rfl, rfl⟩

/-- Every next state that an instruction answers is a record update of registers and of the observer's record. -/
theorem exec_sameSurroundings (h : exec i s = .next t) : SameSurroundings s t := by
  cases i with
  | set l v =>
    rcases execSet_cases h with ⟨-, -, rfl⟩ | ⟨-, -, rfl⟩ | ⟨-, o, -, rfl⟩ <;> exact ⟨⟨rfl, rfl⟩, rfl, rfl, rfl⟩
  | wait k b =>
    obtain ⟨n, -, ⟨-, -, rfl⟩ | ⟨-, -, rfl⟩ | ⟨-, -, rfl⟩ | ⟨-, -, rfl⟩⟩ := execWait_cases h <;>
      exact ⟨⟨rfl, rfl⟩, rfl, rfl, rfl⟩
  | poll l v =>
    rcases execPoll_cases h with ⟨-, rfl⟩ | ⟨-, ⟨-, rfl⟩ | ⟨-, -, rfl⟩ | ⟨-, -, rfl⟩⟩ <;>
      exact ⟨⟨rfl, rfl⟩, rfl, rfl, rfl⟩
  | capture0 => rcases execCapture0_cases h with ⟨m, -, rfl⟩ | ⟨-, rfl⟩ <;> exact ⟨⟨rfl, rfl⟩, rfl, rfl, rfl⟩
  | capture1 => rcases execCapture1_cases h with ⟨m, -, rfl⟩ | ⟨-, rfl⟩ <;> exact ⟨⟨rfl, rfl⟩, rfl, rfl, rfl⟩
  | nop | sample | ret _ | ret2 =>
    obtain rfl := Host.Outcome.next.inj h
    exact ⟨⟨rfl, rfl⟩, rfl, rfl, rfl⟩
  | wcmd | cmdReset | cmdTriggerAndRead =>
    rcases exec_takesCommand h rfl with rfl | ⟨k, rfl, -⟩
    · exact ⟨⟨rfl, rfl⟩, rfl, rfl, rfl⟩
    · exact s.presentCommand_sameSurroundings k

/-- An outside agent reaches registers and input ports only. -/
theorem State.outsideTurn_sameMemory (u : Turn) (s : State) : SameMemory s (s.outsideTurn u) := by
  rcases s.outsideTurn_cases u with ⟨p, h, -⟩ | ⟨-, -, h⟩ | ⟨p, h, -⟩
  · rw [h]
    exact ⟨rfl, rfl⟩
  · rw [h, State.tick_eq]
    split <;> exact ⟨rfl, rfl⟩
  · rw [h]
    exact ⟨rfl, rfl⟩

theorem step_sameMemory (h : step s = .next t) : SameMemory s t := by
  have begun : SameMemory s.beginTurn t := by
    rcases step_cases h with ⟨-, rfl⟩ | ⟨-, -, rfl⟩ | ⟨-, -, -, rfl⟩ | ⟨-, -, -, i, -, he⟩
    · exact s.beginTurn.outsideTurn_sameMemory s.nextTurn
    · exact ⟨rfl, rfl⟩
    · exact ⟨rfl, rfl⟩
    · exact (exec_sameSurroundings he).toSameMemory
  exact ⟨begun.cfg.trans s.beginTurn_cfg, begun.rom.trans s.beginTurn_rom⟩

/-- Settles O41: a ROM word is read from the list and the configuration, which both stay. -/
theorem romAndConfigurationNeverChange : Obligations.RomAndConfigurationNeverChange := by
  constructor
  · intro s t h
    have kept := step_sameMemory h
    exact ⟨kept.cfg, kept.rom, kept.romByte⟩
  · intro i s t h
    have kept := exec_sameSurroundings h
    exact ⟨kept.cfg, kept.pins, kept.agenda, kept.turnNo, kept.romByte⟩

/-! ## Placing keeps the canonical form -/

/-- Either kind of code is placed by one write of the ROM, at a 6-bit step address and so at an existing one. -/
theorem State.placeCode_wf (code : Code) (h : s.rom.wf s.cfg = true) :
    (s.placeCode code).rom.wf (s.placeCode code).cfg = true := by
  cases code with
  | microWord b => exact Rom.wf_write h s.upc.isLt
  | command c => exact Rom.wf_write h (s.sequencerNext.placeCommand c).upc.isLt

/-- Settles O9: a step leaves list and configuration, a placing writes one existing address. -/
theorem romStaysCanonical : Obligations.RomStaysCanonical := by
  constructor
  · intro s t hwf h
    have kept := step_sameMemory h
    rwa [kept.cfg, kept.rom]
  · intro s nbits w hwf
    exact State.placeCode_wf (tableCode nbits w) hwf

/-! ## No step faults -/

theorem next_ne_fault (t : State) (f : Fault) : (.next t : Host.Outcome State Fault Refusal) ≠ .fault f := nofun

/-- An instruction answers a next state or a refusal; only SET and WAIT have a refusal. -/
theorem exec_ne_fault (i : Instr) (s : State) (f : Fault) : exec i s ≠ .fault f := by
  cases i with
  | set l v =>
    simp only [exec, execSet]
    split
    · nofun
    · split <;> nofun
  | wait _ _ | poll _ _ | capture0 | capture1 =>
    simp only [exec, execWait, execPoll, execCapture0, execCapture1]
    split <;> nofun
  | nop | sample | wcmd | ret _ | ret2 | cmdReset | cmdTriggerAndRead => exact next_ne_fault _ f

/-- The fetch at `upc` always finds a word, which is executed or refused. -/
theorem runFetched_ne_fault (s : State) (f : Fault) : runFetched s ≠ .fault f := by
  cases hd : decode (s.rom.word s.cfg s.upc.toNat) with
  | ok i =>
    rw [runFetched_of_decode hd]
    exact exec_ne_fault i s f
  | error e => simp [runFetched, State.fetch_eq, hd]

theorem sequencerTurn_ne_fault (s : State) (f : Fault) : sequencerTurn s ≠ .fault f := by
  unfold sequencerTurn
  split
  · nofun
  · split
    · nofun
    · exact runFetched_ne_fault s f

/-- Settles O13: an illegal configuration is refused, an outside agent's turn always answers, and the Sequencer's turn
fetches at an existing address. -/
theorem noStepFaults : Obligations.NoStepFaults := by
  intro s f
  by_cases hz : s.cfg.maxBusyPolls = 0#32
  · rw [stepRefusesZeroPollBound s hz]
    nofun
  · rw [step_of_turn hz rfl]
    split
    · exact sequencerTurn_ne_fault s.beginTurn f
    · nofun

end Sys2Proof.Machine
end

section
/-! PROOFS. The decoder by op and format (`30_encoding.md` R83 to R91), decoding against encoding (R98), and the illegal
words. -/

namespace Sys2Proof

variable {w base : Byte} {i : Instr} {mk : Line → Bool → Instr}

/-! ## The decoder by its op -/

theorem decode_of_op0 (h : w.extractLsb' 5 3 = 0#3) : decode w = requireZero w 0x1F .nop := by simp only [decode, h]
theorem decode_of_op1 (h : w.extractLsb' 5 3 = 1#3) : decode w = decodeL w .set := by simp only [decode, h]
theorem decode_of_op2 (h : w.extractLsb' 5 3 = 2#3) : decode w = decodeT w := by simp only [decode, h]
theorem decode_of_op3 (h : w.extractLsb' 5 3 = 3#3) : decode w = decodeL w .poll := by simp only [decode, h]
theorem decode_of_op4 (h : w.extractLsb' 5 3 = 4#3) : decode w = decodeC w := by simp only [decode, h]
theorem decode_of_op5 (h : w.extractLsb' 5 3 = 5#3) : decode w = requireZero w 0x1F .sample := by simp only [decode, h]
theorem decode_of_op6 (h : w.extractLsb' 5 3 = 6#3) : decode w = requireZero w 0x1F .wcmd := by simp only [decode, h]
theorem decode_of_op7 (h : w.extractLsb' 5 3 = 7#3) : decode w = decodeR w := by simp only [decode, h]

/-- A word has one of the eight ops (`30_encoding.md` R84). -/
theorem op_cases (op : BitVec 3) :
    op = 0#3 ∨ op = 1#3 ∨ op = 2#3 ∨ op = 3#3 ∨ op = 4#3 ∨ op = 5#3 ∨ op = 6#3 ∨ op = 7#3 := by
  decide +revert

/-! ## What each format reads -/

theorem decodeL_eq_ok :
    decodeL w mk = .ok i ↔ w &&& 0x02 = 0 ∧ mk (Line.ofId (w.extractLsb' 2 3)) (w.getLsbD 0) = i :=
  requireZero_eq_ok

theorem decodeT_eq_ok :
    decodeT w = .ok i ↔
      (w.extractLsb' 0 3).toNat ≤ 5 ∧ w &&& 0x08 = 0 ∧ .wait (w.extractLsb' 0 3) (w.getLsbD 4) = i := by
  simp only [decodeT]
  split <;> simp_all [requireZero_eq_ok]

theorem decodeC_eq_ok :
    decodeC w = .ok i ↔ w &&& 0x1E = 0 ∧ (if w.getLsbD 0 then .capture1 else .capture0) = i :=
  requireZero_eq_ok

theorem decodeR_eq_ok :
    decodeR w = .ok i ↔ w &&& 0x1C = 0 ∧
      (w.extractLsb' 0 2 = 0#2 ∧ .ret 0 = i ∨ w.extractLsb' 0 2 = 1#2 ∧ .ret 1 = i ∨
        w.extractLsb' 0 2 = 2#2 ∧ .ret2 = i) := by
  unfold decodeR
  split <;> simp_all [requireZero_eq_ok]

/-! ## A word and its fields -/

/-- The op in bits 7:5 of a micro-word (`30_encoding.md` R83). -/
def opByte (op : BitVec 3) : Byte := op.setWidth 8 <<< 5

/-- The fields of a format `L` word are those it is put together from (`30_encoding.md` R86). -/
theorem encodeL_fields (op : BitVec 3) (l : Line) (v : Bool) :
    (encodeL (opByte op) l v).extractLsb' 5 3 = op ∧ encodeL (opByte op) l v &&& 0x02 = 0 ∧
      (encodeL (opByte op) l v).extractLsb' 2 3 = l.id ∧ (encodeL (opByte op) l v).getLsbD 0 = v := by
  unfold encodeL
  generalize l.id = n
  cases v <;> decide +revert

/-- A format `L` word is put together from its fields. -/
theorem encodeL_of_fields (hbase : opByte (w.extractLsb' 5 3) = base) (hz : w &&& 0x02 = 0) :
    encodeL base (Line.ofId (w.extractLsb' 2 3)) (w.getLsbD 0) = w := by
  subst hbase
  rw [encodeL, Line.id_ofId]
  decide +revert

/-- So is a word of format `T` (`30_encoding.md` R87). -/
theorem formatT_of_fields (hop : w.extractLsb' 5 3 = 2#3) (hz : w &&& 0x08 = 0) :
    0x40 ||| (bitByte (w.getLsbD 4) <<< 4) ||| (w.extractLsb' 0 3).setWidth 8 = w := by
  decide +revert

/-- A word of format `N` is its op (`30_encoding.md` R85). -/
theorem formatN_of_fields {op : BitVec 3} (hop : w.extractLsb' 5 3 = op) (hz : w &&& 0x1F = 0) : opByte op = w := by
  subst hop
  decide +revert

/-- A word of format `C` is its op and its destination (`30_encoding.md` R88). -/
theorem formatC_of_fields {op : BitVec 3} {d : Bool} (hop : w.extractLsb' 5 3 = op) (hd : w.getLsbD 0 = d)
    (hz : w &&& 0x1E = 0) : opByte op ||| bitByte d = w := by
  subst hop hd
  decide +revert

/-- A word of format `R` is its op and its return mode (`30_encoding.md` R89). -/
theorem formatR_of_fields {op : BitVec 3} {m : BitVec 2} (hop : w.extractLsb' 5 3 = op) (hm : w.extractLsb' 0 2 = m)
    (hz : w &&& 0x1C = 0) : opByte op ||| m.setWidth 8 = w := by
  subst hop hm
  decide +revert

/-! ## Decoding an encoding -/

theorem decodeL_encodeL (op : BitVec 3) (l : Line) (v : Bool) :
    decodeL (encodeL (opByte op) l v) mk = .ok (mk l v) := by
  obtain ⟨-, hz, hl, hv⟩ := encodeL_fields op l v
  rw [decodeL_eq_ok, hl, hv, Line.ofId_id]
  exact ⟨hz, rfl⟩

theorem decode_encode_set (l : Line) (v : Bool) : decode (encodeL 0x20 l v) = .ok (.set l v) :=
  (decode_of_op1 (encodeL_fields 1#3 l v).1).trans (decodeL_encodeL 1#3 l v)

theorem decode_encode_poll (l : Line) (v : Bool) : decode (encodeL 0x60 l v) = .ok (.poll l v) :=
  (decode_of_op3 (encodeL_fields 3#3 l v).1).trans (decodeL_encodeL 3#3 l v)

theorem decode_encode_wait {k : BitVec 3} (b : Bool) (hk : k.toNat ≤ 5) :
    decode (0x40 ||| (bitByte b <<< 4) ||| k.setWidth 8) = .ok (.wait k b) := by
  decide +revert

theorem decode_encode_ret (m : BitVec 1) : decode (0xE0 ||| m.setWidth 8) = .ok (.ret m) := by
  decide +revert

/-- Settles O1: the formats with operands by their fields; every other instruction has one word, which is evaluated. -/
theorem decodeOfEncodeIsIdentity : Obligations.DecodeOfEncodeIsIdentity := by
  intro i hwf
  cases i with
  | set l v => exact decode_encode_set l v
  | poll l v => exact decode_encode_poll l v
  | wait k b => exact decode_encode_wait b (of_decide_eq_true hwf)
  | ret m => exact decode_encode_ret m
  | nop | capture0 | capture1 | sample | wcmd | ret2 | cmdReset | cmdTriggerAndRead => rfl

/-! ## Encoding what was decoded -/

/-- A micro-word that decodes is the encoding of a well-formed instruction: each format's word is put together from the
fields that the decoder reads. -/
theorem encode_of_decode (h : decode w = .ok i) : i.wellFormed = true ∧ encode i = .microWord w := by
  rcases op_cases (w.extractLsb' 5 3) with hop | hop | hop | hop | hop | hop | hop | hop
  · rw [decode_of_op0 hop] at h
    obtain ⟨hz, rfl⟩ := requireZero_eq_ok.1 h
    exact ⟨rfl, congrArg Code.microWord (formatN_of_fields hop hz)⟩
  · rw [decode_of_op1 hop] at h
    obtain ⟨hz, rfl⟩ := decodeL_eq_ok.1 h
    exact ⟨rfl, congrArg Code.microWord (encodeL_of_fields (congrArg opByte hop) hz)⟩
  · rw [decode_of_op2 hop] at h
    obtain ⟨hk, hz, rfl⟩ := decodeT_eq_ok.1 h
    exact ⟨decide_eq_true hk, congrArg Code.microWord (formatT_of_fields hop hz)⟩
  · rw [decode_of_op3 hop] at h
    obtain ⟨hz, rfl⟩ := decodeL_eq_ok.1 h
    exact ⟨rfl, congrArg Code.microWord (encodeL_of_fields (congrArg opByte hop) hz)⟩
  · rw [decode_of_op4 hop] at h
    obtain ⟨hz, rfl⟩ := decodeC_eq_ok.1 h
    cases hd : w.getLsbD 0 <;> exact ⟨rfl, congrArg Code.microWord (formatC_of_fields hop hd hz)⟩
  · rw [decode_of_op5 hop] at h
    obtain ⟨hz, rfl⟩ := requireZero_eq_ok.1 h
    exact ⟨rfl, congrArg Code.microWord (formatN_of_fields hop hz)⟩
  · rw [decode_of_op6 hop] at h
    obtain ⟨hz, rfl⟩ := requireZero_eq_ok.1 h
    exact ⟨rfl, congrArg Code.microWord (formatN_of_fields hop hz)⟩
  · rw [decode_of_op7 hop] at h
    obtain ⟨hz, ⟨hm, rfl⟩ | ⟨hm, rfl⟩ | ⟨hm, rfl⟩⟩ := decodeR_eq_ok.1 h
    all_goals
      have word := formatR_of_fields hop hm hz
      exact ⟨rfl, congrArg Code.microWord word⟩

/-- The two command codes that decode are the encodings of the two commands (`30_encoding.md` R81). -/
theorem decodeCmd_eq_ok {c : CmdCode} :
    decodeCmd c = .ok i ↔ c = 0b01#2 ∧ i = .cmdReset ∨ c = 0b10#2 ∧ i = .cmdTriggerAndRead := by
  unfold decodeCmd
  split <;> simp [eq_comm]

/-- Settles O2: micro-words by their format, command codes by the two that decode. -/
theorem encodeOfDecodeIsIdentity : Obligations.EncodeOfDecodeIsIdentity := by
  intro code i h
  cases code with
  | microWord w => exact encode_of_decode h
  | command c => rcases decodeCmd_eq_ok.1 h with ⟨rfl, rfl⟩ | ⟨rfl, rfl⟩ <;> exact ⟨rfl, rfl⟩

/-! ## Illegal words -/

theorem requireZero_rejects {reserved : Byte} : (∃ e, requireZero w reserved i = .error e) ↔ w &&& reserved ≠ 0 := by
  unfold requireZero
  split <;> simp_all

theorem formatN_rejects : (∃ e, requireZero w 0x1F i = .error e) ↔ w.extractLsb' 0 5 ≠ 0 := by
  have field : ∀ w : Byte, w &&& 0x1F ≠ 0 ↔ w.extractLsb' 0 5 ≠ 0 := by decide
  exact requireZero_rejects.trans (field w)

theorem decodeL_rejects : (∃ e, decodeL w mk = .error e) ↔ w.getLsbD 1 = true := by
  have field : ∀ w : Byte, w &&& 0x02 ≠ 0 ↔ w.getLsbD 1 = true := by decide
  exact requireZero_rejects.trans (field w)

theorem decodeT_rejects :
    (∃ e, decodeT w = .error e) ↔ w.getLsbD 3 = true ∨ 6 ≤ (w.extractLsb' 0 3).toNat := by
  have field : ∀ w : Byte, w &&& 0x08 ≠ 0 ↔ w.getLsbD 3 = true := by decide
  simp only [decodeT]
  split
  case isTrue hk =>
    rw [requireZero_rejects, field, or_iff_left (Nat.not_le_of_lt (Nat.lt_succ_of_le hk))]
  case isFalse hk =>
    have reserved : 6 ≤ (w.extractLsb' 0 3).toNat := Nat.lt_of_not_le hk
    simp only [exists_eq', reserved, or_true, Except.error.injEq]

theorem decodeC_rejects : (∃ e, decodeC w = .error e) ↔ w.extractLsb' 1 4 ≠ 0 := by
  have field : ∀ w : Byte, w &&& 0x1E ≠ 0 ↔ w.extractLsb' 1 4 ≠ 0 := by decide
  exact requireZero_rejects.trans (field w)

theorem decodeR_rejects :
    (∃ e, decodeR w = .error e) ↔ w.extractLsb' 2 3 ≠ 0 ∨ w.extractLsb' 0 2 = 3 := by
  have field : ∀ w : Byte, w &&& 0x1C ≠ 0 ↔ w.extractLsb' 2 3 ≠ 0 := by decide
  unfold decodeR
  split
  case h_1 hm | h_2 hm | h_3 hm =>
    rw [requireZero_rejects, field, hm]
    simp
  case h_4 hm => simp [hm]

/-- How many of the 32 words of an op are illegal. -/
def illegalOfOp (op : Nat) : Nat := (List.range 32).countP fun arg => !(decode (BitVec.ofNat 8 (32 * op + arg))).toBool

/-- Counting over `m * n` numbers is counting over `n` blocks of `m`. -/
theorem countP_range_mul (f : Nat → Bool) (m n : Nat) :
    (List.range (m * n)).countP f = ((List.range n).map fun k => (List.range m).countP fun a => f (m * k + a)).sum := by
  induction n with
  | zero => simp
  | succ n ih =>
    rw [Nat.mul_succ, List.range_add, List.countP_append, ih, List.countP_map, List.range_succ, List.map_append,
      List.sum_append, List.map_singleton, List.sum_singleton]
    rfl

/-- The illegal words of each op. -/
theorem illegalOfOp_eq : (List.range 8).map illegalOfOp = [31, 16, 20, 16, 30, 31, 31, 29] := by decide

/-- The sum of the ops' illegal words. -/
theorem countP_illegal : ((List.range 256).countP fun n => !(decode (BitVec.ofNat 8 n)).toBool) = 204 :=
  (countP_range_mul _ 32 8).trans (congrArg List.sum illegalOfOp_eq)

/-- Settles O3: each op's format by what it rejects; the count is taken op by op. -/
theorem illegalWordsAreTheReservedOnes : Obligations.IllegalWordsAreTheReservedOnes := by
  refine ⟨fun w => ?_, countP_illegal⟩
  rcases op_cases (w.extractLsb' 5 3) with hop | hop | hop | hop | hop | hop | hop | hop
  · rw [decode_of_op0 hop, formatN_rejects, hop]
    simp
  · rw [decode_of_op1 hop, decodeL_rejects, hop]
    simp
  · rw [decode_of_op2 hop, decodeT_rejects, hop]
    simp
  · rw [decode_of_op3 hop, decodeL_rejects, hop]
    simp
  · rw [decode_of_op4 hop, decodeC_rejects, hop]
    simp
  · rw [decode_of_op5 hop, formatN_rejects, hop]
    simp
  · rw [decode_of_op6 hop, formatN_rejects, hop]
    simp
  · rw [decode_of_op7 hop, decodeR_rejects, hop]
    simp

/-! ## Written-out words -/

/-- Settles O4: each word is decoded by evaluation. -/
theorem writtenOutWordsDecode : Obligations.WrittenOutWordsDecode :=
  ⟨rfl, rfl, rfl, rfl, rfl, rfl, rfl, rfl, rfl, rfl⟩

/-- Settles O5: the four codes by evaluation. -/
theorem commandCodesDecode : Obligations.CommandCodesDecode := ⟨rfl, rfl, rfl, rfl⟩

end Sys2Proof
end

section
/-! PROOFS. The step ROM's table (`30_encoding.md` R92, R93), its canonical form (log 3), and that no step stops on it. -/

namespace Sys2Proof.Machine

variable {s : State} {i : Instr} {c : Config} {p q r : Rom} {lo a x : Nat} {b y : Byte} {e : Illegal}

/-! ## The table of R92 -/

/-- The 64 words: the image, then the filler. -/
theorem romWords_eq (c : Config) : (List.range 64).map (romWord c) = romImage c ++ List.replicate 27 romFiller := rfl

/-- The word that sets COMPANION to a configured level. -/
theorem companionWord_eq (v : Bool) : 0x28 + bitByte v = bif v then 0x29 else 0x28 := by cases v <;> rfl

theorem decode_companionWord (v : Bool) : decode (bif v then 0x29 else 0x28) = .ok (.set .companion v) := by
  cases v <;> rfl

theorem decode_diagnosticWord (d : Bool) :
    decode (bif d then 0x81 else 0x00) = .ok (bif d then .capture1 else .nop) := by
  cases d <;> rfl

/-- The micro-ops at the 64 addresses are the 64 words decoded. -/
theorem romOps_eq (c : Config) :
    (List.range 64).map (fun a => romOp c (BitVec.ofNat 6 a)) = ((List.range 64).map (romWord c)).map decode := by
  rw [List.map_map]
  refine List.map_congr_left fun a ha => ?_
  have hlt : a < 64 := List.mem_range.1 ha
  simp [romOp, Nat.mod_eq_of_lt hlt]

/-- Settles O6: the three configured words by their mode bit, every other word and every phase by evaluation. -/
theorem romImageIsTheTableOfR92 : Obligations.RomImageIsTheTableOfR92 := by
  intro c
  rw [romOps_eq, romWords_eq, romImage, romReset, romAcquisition, companionWord_eq, companionWord_eq,
    ← Bool.cond_eq_ite]
  refine ⟨rfl, ?_, by decide⟩
  simp only [List.map_append, List.map_cons, decode_companionWord, decode_diagnosticWord]
  rfl

/-- Every address of the spec's ROM holds a micro-op. -/
theorem exists_romOp (c : Config) (a : StepAddr) : ∃ i, romOp c a = .ok i := by
  obtain ⟨-, ops, -⟩ := romImageIsTheTableOfR92 c
  have listed : romOp c a ∈ (List.range 64).map fun n => romOp c (BitVec.ofNat 6 n) :=
    List.mem_map.2 ⟨a.toNat, List.mem_range.2 a.isLt, by rw [BitVec.ofNat_toNat, BitVec.setWidth_eq]⟩
  rw [ops] at listed
  obtain ⟨i, -, hi⟩ := List.mem_map.1 listed
  exact ⟨i, hi.symm⟩

/-! ## Canonical lists are determined by their words -/

/-- Below its first listed address a canonical list reads as the image. -/
theorem Rom.word_of_lt (h : r.canonicalFrom c lo = true) (ha : a < lo) : r.word c a = romWord c a := by
  rw [Rom.word, Rom.listed_eq_none h ha, Option.getD_none]

@[simp] theorem Rom.word_cons_same : Rom.word ((x, y) :: r) c x = y := by simp [Rom.word, Rom.listed]

theorem Rom.word_cons_other (h : x ≠ a) : Rom.word ((x, y) :: r) c a = r.word c a := by simp [Rom.word, Rom.listed, h]

/-- The first listed word is not the image's, so it tells a canonical list from one that lists later addresses only. -/
theorem Rom.word_ne_of_lt (hp : Rom.canonicalFrom c lo ((x, y) :: p) = true) (hq : q.canonicalFrom c (x + 1) = true) :
    Rom.word ((x, y) :: p) c x ≠ q.word c x := by
  obtain ⟨-, -, hne, -⟩ := Rom.canonicalFrom_cons.1 hp
  rwa [Rom.word_cons_same, Rom.word_of_lt hq x.lt_succ_self]

/-- Canonical lists that read alike are equal: their first listed addresses cannot differ, and behind a common first
entry they read alike again. -/
theorem Rom.eq_of_word_eq (hp : p.canonicalFrom c lo = true) (hq : q.canonicalFrom c lo = true)
    (h : ∀ a, p.word c a = q.word c a) : p = q := by
  induction p generalizing q lo with
  | nil =>
    cases q with
    | nil => rfl
    | cons e q => exact absurd (h e.1).symm (Rom.word_ne_of_lt (p := q) hq rfl)
  | cons e p ih =>
    obtain ⟨x, y⟩ := e
    cases q with
    | nil => exact absurd (h x) (Rom.word_ne_of_lt hp rfl)
    | cons e' q =>
      obtain ⟨x', y'⟩ := e'
      obtain ⟨-, hx, hy, hp'⟩ := Rom.canonicalFrom_cons.1 hp
      obtain ⟨-, hx', hy', hq'⟩ := Rom.canonicalFrom_cons.1 hq
      rcases Nat.lt_trichotomy x x' with hlt | rfl | hlt
      · exact absurd (h x) (Rom.word_ne_of_lt hp (Rom.canonicalFrom_cons.2 ⟨hlt, hx', hy', hq'⟩))
      · have hword : y = y' := by simpa using h x
        have tails : ∀ a, Rom.word p c a = Rom.word q c a := by
          intro a
          by_cases ha : x = a
          · rw [← ha, Rom.word_of_lt hp' x.lt_succ_self, Rom.word_of_lt hq' x.lt_succ_self]
          · rw [← Rom.word_cons_other ha, h a, Rom.word_cons_other ha]
        rw [hword, ih hp' hq' tails]
      · exact absurd (h x').symm (Rom.word_ne_of_lt hq (Rom.canonicalFrom_cons.2 ⟨hlt, hx, hy, hp'⟩))

/-- Settles O8: the canonical form asks every list to rise from address 0. -/
theorem canonicalRomsThatReadAlikeAreEqual : Obligations.CanonicalRomsThatReadAlikeAreEqual :=
  fun _ _ _ hp hq h => Rom.eq_of_word_eq hp hq h

/-! ## Refusals -/

/-- A fetched word that does not decode is refused. -/
theorem runFetched_of_illegal (h : decode (s.rom.word s.cfg s.upc.toNat) = .error e) :
    runFetched s = .refused (.illegalWord s.upc (s.rom.word s.cfg s.upc.toNat) e) := by
  simp [runFetched, State.fetch_eq, h]

/-- Settles O11: the unheld turn fetches the word, which the decoder rejects. -/
theorem stepRefusesAnIllegalWord : Obligations.StepRefusesAnIllegalWord := by
  intro s w e hl ht hr hh hf hd
  rw [State.fetch_eq, Except.ok.injEq] at hf
  subst hf
  rw [step_of_sequencer hl ht hr, hh, if_neg Bool.false_ne_true, runFetched_of_illegal (by simpa using hd)]
  simp

/-- A time constant is selected exactly by an index up to 5. -/
theorem timeConstant_eq_none {k : BitVec 3} : timeConstant c k = none ↔ 6 ≤ k.toNat := by
  rw [timeConstant_eq, List.getElem?_eq_none_iff]
  rfl

/-- Settles O28: a reserved index selects no time constant; and what decodes is well formed. -/
theorem waitWithReservedIndexIsRefused : Obligations.WaitWithReservedIndexIsRefused := by
  intro k b hk
  constructor
  · intro s
    simp only [exec, execWait, timeConstant_eq_none.2 hk]
  · intro w h
    have hle : k.toNat ≤ 5 := of_decide_eq_true (encodeOfDecodeIsIdentity w _ h).1
    omega

/-! ## The spec's ROM is never refused -/

/-- Only a reserved time constant or a SET of a line without output register is refused. -/
theorem exec_answers (hwf : i.wellFormed = true) (hset : ∀ l v, i = .set l v → l.id.toNat ≤ 4) :
    ∃ t, exec i s = .next t := by
  cases i with
  | set l v =>
    simp only [exec, execSet]
    cases dirOf s.cfg l with
    | input => exact ⟨_, rfl⟩
    | output =>
      obtain ⟨o, ho⟩ := Outputs.write_of_id_le (o := s.out) (v := v) (hset l v rfl)
      rw [State.driveLine_eq_some.2 ⟨o, ho, rfl⟩]
      exact ⟨_, rfl⟩
  | wait k b =>
    have hk : timeConstant s.cfg k ≠ none := by
      have hle : k.toNat ≤ 5 := of_decide_eq_true hwf
      rw [ne_eq, timeConstant_eq_none]
      omega
    obtain ⟨n, hn⟩ := Option.ne_none_iff_exists'.1 hk
    simp only [exec, execWait, hn]
    exact ⟨_, rfl⟩
  | poll _ _ | capture0 | capture1 =>
    simp only [exec, execPoll, execCapture0, execCapture1]
    split <;> exact ⟨_, rfl⟩
  | nop | sample | wcmd | ret _ | ret2 | cmdReset | cmdTriggerAndRead => exact ⟨_, rfl⟩

/-- The spec's ROM sets lines 0 to 4 only. -/
theorem line_id_le_of_standsAt {l : Line} {v : Bool} (h : standsAt (.set l v) a = true) : l.id.toNat ≤ 4 := by
  cases l with
  | reset | convst | companion | chipSelect | readStrobe => decide
  | busy | dataLow | dataHigh => simp [standsAt] at h

/-- The word fetched from the spec's ROM runs. -/
theorem runFetched_of_specRom (hrom : s.rom = []) : ∃ t, runFetched s = .next t := by
  obtain ⟨i, hi⟩ := exists_romOp s.cfg s.upc
  have hd : decode (s.rom.word s.cfg s.upc.toNat) = .ok i := by rwa [hrom, Rom.word_nil]
  rw [runFetched_of_decode hd]
  refine exec_answers (encode_of_decode hd).1 ?_
  rintro l v rfl
  exact line_id_le_of_standsAt (romOp_standsAt hi)

/-- Settles O14: outside turns, resets and holds always answer, and so does every word of the spec's ROM. -/
theorem specRomNeverStops : Obligations.SpecRomNeverStops := by
  intro s hrom hl
  rw [step_of_turn hl rfl]
  split
  · unfold sequencerTurn
    split
    · exact ⟨_, rfl⟩
    · split
      · exact ⟨_, rfl⟩
      · exact runFetched_of_specRom (by rwa [State.beginTurn_rom])
  · exact ⟨_, rfl⟩

/-! ## A placed instruction runs next -/

/-- The Sequencer's unheld step executes the instruction at `upc` in the begun turn. -/
theorem step_eq_exec (hl : s.cfg.Legal) (ht : s.nextTurn = .sequencer) (hr : s.pins.hwreset = false)
    (hh : s.held = false) (hw : s.rom.word s.cfg s.upc.toNat = b) (hd : decode b = .ok i) :
    step s = exec i s.beginTurn := by
  rw [stepRunsTheDecodedInstruction s b i hl ht hr hh (hw ▸ s.fetch_eq) hd, State.beginTurn_eq]

/-- The turn that placing makes the Sequencer's is not held. -/
theorem State.sequencerNext_held (s : State) : s.sequencerNext.held = false := by
  cases hw : s.waiting <;> simp [State.sequencerNext, State.held, hw]

/-- A micro-word that is placed is executed by the next step. -/
theorem step_placeMicroWord (hl : s.cfg.Legal) (hwf : s.rom.wf s.cfg = true) (hd : decode b = .ok i) :
    step (s.placeCode (.microWord b)) = exec i (s.placeCode (.microWord b)).beginTurn := by
  have hword : (s.placeCode (.microWord b)).rom.word s.cfg s.upc.toNat = b := Rom.word_write_same hwf
  exact step_eq_exec (s := s.placeCode (.microWord b)) hl rfl rfl s.sequencerNext_held hword hd

/-- `WCMD` does what the presented command does as an instruction (log 10). -/
theorem execWcmd_of_presented {k : CmdCode} (hv : s.pins.cmdValid = true) (hk : s.pins.cmd = k)
    (hd : decodeCmd k = .ok i) : exec .wcmd s = exec i s := by
  rcases decodeCmd_eq_ok.1 hd with ⟨rfl, rfl⟩ | ⟨rfl, rfl⟩ <;>
    simp only [exec, execWcmd, execCmdReset, execCmdTriggerAndRead, hv, hk, if_true]

/-- A command that is placed is presented to the `WCMD` that the next step executes. -/
theorem step_placeCommand {k : CmdCode} (hl : s.cfg.Legal) (hwf : s.rom.wf s.cfg = true) (hd : decodeCmd k = .ok i) :
    step (s.placeCode (.command k)) = exec i (s.placeCode (.command k)).beginTurn := by
  have hword : (s.placeCode (.command k)).rom.word s.cfg (s.placeCode (.command k)).upc.toNat = 0xC0 :=
    Rom.word_write_same hwf
  have hwcmd : decode 0xC0 = .ok .wcmd := rfl
  rw [step_eq_exec (s := s.placeCode (.command k)) hl rfl rfl s.sequencerNext_held hword hwcmd]
  exact execWcmd_of_presented (by rw [State.beginTurn_pins]; rfl) (by rw [State.beginTurn_pins]; rfl) hd

/-- Settles O15: a table word is placed as the kind it is, and either kind runs next. -/
theorem placedInstructionRunsNext : Obligations.PlacedInstructionRunsNext := by
  intro s nbits w i hl hwf h
  have hd := decodeTableWord_eq_some.1 h
  rw [State.withFetchWord]
  cases hc : tableCode nbits w with
  | microWord b => exact step_placeMicroWord hl hwf (by rwa [hc] at hd)
  | command k => exact step_placeCommand hl hwf (by rwa [hc] at hd)

end Sys2Proof.Machine
end

section
/-! PROOFS. The host commands as instructions (`40_host_commands.md` R111, R120, R121, R134; log 10). -/

namespace Sys2Proof.Machine

variable {s : State} {k : CmdCode}

/-- A command presented where the sequencer is not ready has no effect. -/
theorem State.presentCommand_of_busy (h : s.cmdReady = false) : s.presentCommand k = s := by
  simp [State.presentCommand, h]

/-- Settles O35: of the four things a presented command can do, `CMD_RESET` at a quiescent address is accepted. -/
theorem cmdResetIsAccepted : Obligations.CmdResetIsAccepted := by
  intro s hu
  have hready := State.cmdReady_eq_true.2 hu
  refine congrArg Host.Outcome.next ?_
  rcases s.presentCommand_cases 0b01#2 with ⟨hr, -⟩ | ⟨-, -, h⟩ | ⟨-, hk, -⟩ | ⟨-, hk, -⟩
  · simp [hready] at hr
  · exact h
  · simp at hk
  · simp at hk

/-- Settles O36: of the four things a presented command can do, `CMD_TRIGGER_AND_READ` at 0x01 is accepted. -/
theorem cmdTriggerIsAcceptedAtTheBaseline : Obligations.CmdTriggerIsAcceptedAtTheBaseline := by
  intro s hu
  have hready := State.cmdReady_eq_true.2 (.inr hu)
  refine congrArg Host.Outcome.next ?_
  rcases s.presentCommand_cases 0b10#2 with ⟨hr, -⟩ | ⟨-, hk, -⟩ | ⟨-, -, h⟩ | ⟨-, -, hk, -⟩
  · simp [hready] at hr
  · simp at hk
  · exact h
  · exact absurd ⟨rfl, hu⟩ hk

/-- Settles O37: of the four things a presented command can do, `CMD_TRIGGER_AND_READ` at 0x00 is refused. -/
theorem cmdTriggerIsRefusedAtIdle : Obligations.CmdTriggerIsRefusedAtIdle := by
  intro s hu
  have hready := State.cmdReady_eq_true.2 (.inl hu)
  refine congrArg Host.Outcome.next ?_
  rcases s.presentCommand_cases 0b10#2 with ⟨hr, -⟩ | ⟨-, hk, -⟩ | ⟨hu1, -, -⟩ | ⟨-, -, -, h⟩
  · simp [hready] at hr
  · simp at hk
  · simp [hu] at hu1
  · exact h

/-- Settles O38: away from the two quiescent addresses a presented command has no effect, whoever presents it. -/
theorem commandWhileBusyLeavesNoTrace : Obligations.CommandWhileBusyLeavesNoTrace := by
  intro s h0 h1
  have hbusy : s.cmdReady = false := by
    rw [← Bool.not_eq_true, State.cmdReady_eq_true]
    exact not_or.2 ⟨h0, h1⟩
  have noEffect : ∀ k, s.presentCommand k = s := fun _ => State.presentCommand_of_busy hbusy
  refine ⟨congrArg _ (noEffect _), congrArg _ (noEffect _), ?_⟩
  rw [exec, execWcmd, noEffect, ite_self]

end Sys2Proof.Machine
end

section
/-! PROOFS. The run of one command under any schedule: every turn but two kinds passes without an effect on the
registers, so the run goes from one micro-op of the routine to the next (`00_scope.md` R12, `10_state.md` R50). -/

namespace Sys2Proof.Machine

variable {s t u v x y : State} {ts : List Turn} {i : Instr} {m n : Nat} {k : BitVec 3} {b : Bool}

/-! ## Runs of several steps -/

/-- A run begins with a step. -/
theorem run_succ (h : step s = .next u) : Host.Core.run core (n + 1) s = Host.Core.run core n u := by
  simp only [Host.Core.run, show core.step s = .next u from h]

/-- A run that answers has a first step that answers. -/
theorem run_succ_eq_next :
    Host.Core.run core (n + 1) s = .next t ↔ ∃ u, step s = .next u ∧ Host.Core.run core n u = .next t := by
  cases h : step s with
  | next u => simp [run_succ h]
  | fault r => simp [Host.Core.run, show core.step s = .fault r from h]
  | refused r => simp [Host.Core.run, show core.step s = .refused r from h]

/-- A run goes on from where its first part ends. -/
theorem run_add (h : Host.Core.run core m s = .next u) :
    Host.Core.run core (m + n) s = Host.Core.run core n u := by
  induction m generalizing s with
  | zero => rw [Nat.zero_add, Host.Outcome.next.inj h]
  | succ m ih =>
    obtain ⟨v, hv, hrest⟩ := run_succ_eq_next.1 h
    rw [Nat.succ_add, run_succ hv, ih hrest]

/-! ## A step without HWRESET -/

/-- An outside agent's turn other than HWRESET: a tick, or new levels on the input ports with `hwreset_i` still 0. -/
theorem State.outsideTurn_of_released {a : Turn} (hr : s.pins.hwreset = false) (ha : a ≠ .hwreset true) :
    (a = .tick ∧ s.outsideTurn a = s.tick) ∨
    ∃ p : Pins, p.hwreset = false ∧ s.outsideTurn a = { s with pins := p } := by
  cases a with
  | sequencer => exact .inr ⟨s.pins, hr, rfl⟩
  | tick => exact .inl ⟨rfl, by simp [State.outsideTurn, hr]⟩
  | device busy lo hi =>
    exact .inr ⟨{ s.pins with busy := busy, dataLow := lo, dataHigh := hi }, hr,
      State.outsideTurn_device_of_released hr busy lo hi⟩
  | host valid c =>
    exact .inr ⟨{ s.pins with cmdValid := valid, cmd := c }, hr, State.outsideTurn_host_of_released hr valid c⟩
  | hwreset level =>
    obtain rfl : level = false := by simpa using ha
    refine .inr ⟨{ s.pins with hwreset := false }, rfl, ?_⟩
    simp [State.outsideTurn, State.underReset, hr]

/-- All that a step without HWRESET can be: new levels on the input ports at most (a turn of the Device or of the Host,
or a held turn of the Sequencer), a tick, or the execution of the instruction at `upc`. -/
theorem State.noHwReset.step_cases (hno : s.noHwReset) (h : step s = .next v) :
    (∃ p : Pins, p.hwreset = false ∧ v = { s.beginTurn with pins := p }) ∨
    (s.nextTurn = .tick ∧ v = s.beginTurn.tick) ∨
    (s.nextTurn = .sequencer ∧ s.held = false ∧
      ∃ i, decode (s.rom.word s.cfg s.upc.toNat) = .ok i ∧ exec i s.beginTurn = .next v) := by
  obtain ⟨hr, hturn⟩ := hno
  have hrBegun : s.beginTurn.pins.hwreset = false := by rwa [State.beginTurn_pins]
  rcases Machine.step_cases h with ⟨-, rfl⟩ | ⟨-, hreset, -⟩ | ⟨-, -, -, rfl⟩ | ⟨hseq, -, hfree, hexec⟩
  · rcases State.outsideTurn_of_released hrBegun hturn with ⟨htick, heq⟩ | ⟨p, hp, heq⟩
    · exact .inr (.inl ⟨htick, heq⟩)
    · exact .inl ⟨p, hp, heq⟩
  · simp [hr] at hreset
  · exact .inl ⟨_, hrBegun, rfl⟩
  · exact .inr (.inr ⟨hseq, hfree, hexec⟩)

/-- A step without HWRESET takes one turn from the agenda and finds `hwreset_i` at 0 again. -/
theorem State.noHwReset.step_agenda (hno : s.noHwReset) (h : step s = .next v) :
    v.agenda = s.agenda.tail ∧ v.pins.hwreset = false := by
  rcases hno.step_cases h with ⟨p, hp, rfl⟩ | ⟨-, rfl⟩ | ⟨-, -, i, -, he⟩
  · exact ⟨s.beginTurn_agenda, hp⟩
  · rw [State.tick_eq]
    split <;> exact ⟨s.beginTurn_agenda, by simpa using hno.1⟩
  · have same := exec_sameSurroundings he
    exact ⟨same.agenda.trans s.beginTurn_agenda, by rw [same.pins, State.beginTurn_pins]; exact hno.1⟩

/-! ## States that differ only in what the outside agents and the schedule change -/

/-- `u` is `x` but for the input ports, the Report port and the schedule. -/
def Alike (x u : State) : Prop :=
  ∃ (p : Pins) (r : Option (ReportLabel × Half)) (agenda : List Turn) (turnNo : Nat),
    u = { x with pins := p, report := r, agenda := agenda, turnNo := turnNo }

theorem Alike.refl (s : State) : Alike s s := ⟨_, _, _, _, rfl⟩

theorem Alike.trans (h : Alike x y) (hu : Alike y u) : Alike x u := by
  obtain ⟨_, _, _, _, rfl⟩ := h
  obtain ⟨_, _, _, _, rfl⟩ := hu
  exact ⟨_, _, _, _, rfl⟩

theorem Alike.withPins (h : Alike x u) (p : Pins) : Alike x { u with pins := p } := by
  obtain ⟨_, _, _, _, rfl⟩ := h
  exact ⟨_, _, _, _, rfl⟩

theorem Alike.beginTurn (h : Alike x u) : Alike x u.beginTurn :=
  h.trans ⟨_, _, _, _, u.beginTurn_eq⟩

theorem Alike.held (h : Alike x u) : u.held = x.held := by
  obtain ⟨_, _, _, _, rfl⟩ := h
  rfl

theorem Alike.cmdReady (h : Alike x u) : u.cmdReady = x.cmdReady := by
  obtain ⟨_, _, _, _, rfl⟩ := h
  rfl

theorem Alike.upc (h : Alike x u) : u.upc = x.upc := by
  obtain ⟨_, _, _, _, rfl⟩ := h
  rfl

theorem Alike.word (h : Alike x u) : u.rom.word u.cfg u.upc.toNat = x.rom.word x.cfg x.upc.toNat := by
  obtain ⟨_, _, _, _, rfl⟩ := h
  rfl

/-- A tick on a held state counts. -/
theorem Alike.tick (h : Alike x u) (hx : x.held = true) : Alike { x with waitCnt := x.waitCnt - 1#32 } u.tick := by
  rw [State.tick_eq, if_pos (h.held.trans hx)]
  obtain ⟨_, _, _, _, rfl⟩ := h
  exact ⟨_, _, _, _, rfl⟩

/-! ## The turns of a command's run -/

/-- At a quiescent address the run of the command has ended. -/
theorem CommandRun.ends (run : CommandRun s ts t) (hs : s.cmdReady = true) : ts = [] ∧ t = s := by
  cases ts with
  | nil => exact ⟨rfl, (Host.Outcome.next.inj run.runs).symm⟩
  | cons a ts => simp [run.first 0 s (by simp) rfl] at hs

/-- At any other address it takes a further step. -/
theorem CommandRun.goesOn (run : CommandRun s ts t) (hs : s.cmdReady = false) :
    s.noHwReset ∧ ∃ rest v, ts = s.nextTurn :: rest ∧ step s = .next v ∧ CommandRun v rest t := by
  cases ts with
  | nil =>
    obtain rfl : s = t := Host.Outcome.next.inj run.runs
    simp [run.ready] at hs
  | cons a ts =>
    obtain ⟨rest, hagenda⟩ := run.agenda
    have hturn : s.nextTurn = a := by simp [State.nextTurn, hagenda]
    obtain ⟨ha, hts⟩ : .hwreset true ≠ a ∧ .hwreset true ∉ ts := by simpa using run.noHwReset
    have hno : s.noHwReset := ⟨run.released, by rw [hturn]; exact ha.symm⟩
    obtain ⟨v, hv, hrest⟩ := run_succ_eq_next.1 run.runs
    obtain ⟨hagenda', hreleased⟩ := hno.step_agenda hv
    refine ⟨hno, ts, v, by rw [hturn], hv, ⟨rest, ?_⟩, hreleased, hts, hrest, run.ready, fun n u hn hu => ?_⟩
    · rw [hagenda', hagenda]
      rfl
    · exact run.first (n + 1) u (by simpa using hn) ((run_succ hv).trans hu)

/-- What can change the registers of a state that is alike `x`: a tick if `x` is held, else the Sequencer's turn. -/
inductive CountingTurn (x u v : State) : Prop where
  | tick (held : x.held = true) (turn : u.nextTurn = .tick) (next : v = u.beginTurn.tick)
  | sequencer (free : x.held = false) (turn : u.nextTurn = .sequencer) (i : Instr)
      (word : decode (x.rom.word x.cfg x.upc.toNat) = .ok i) (next : exec i u.beginTurn = .next v)

/-- Among the turns `ts` from `s` to `t` there is a counting turn, and before it only states alike `x`. -/
def MeetsCountingTurn (x s : State) (ts : List Turn) (t : State) : Prop :=
  ∃ (done todo : List Turn) (u v : State), ts = done ++ u.nextTurn :: todo ∧
    Host.Core.run core done.length s = .next u ∧ Alike x u ∧ step u = .next v ∧ CommandRun v todo t ∧
    CountingTurn x u v

theorem MeetsCountingTurn.of_step (h : MeetsCountingTurn x v ts t) (hv : step s = .next v) :
    MeetsCountingTurn x s (s.nextTurn :: ts) t := by
  obtain ⟨done, todo, u, w, rfl, hdone, hrest⟩ := h
  exact ⟨s.nextTurn :: done, todo, u, w, rfl, (run_succ hv).trans hdone, hrest⟩

/-- The turns of a command's run pass without an effect on the registers until one counts. -/
theorem CommandRun.meetsCountingTurn (run : CommandRun s ts t) (hs : Alike x s) (hx : x.cmdReady = false) :
    MeetsCountingTurn x s ts t := by
  induction ts generalizing s with
  | nil =>
    obtain ⟨-, rest, v, hts, -⟩ := run.goesOn (hs.cmdReady.trans hx)
    simp at hts
  | cons a ts ih =>
    obtain ⟨hno, rest, v, hts, hv, hrun⟩ := run.goesOn (hs.cmdReady.trans hx)
    obtain ⟨rfl, rfl⟩ := List.cons.inj hts
    rcases hno.step_cases hv with ⟨p, -, rfl⟩ | ⟨htick, rfl⟩ | ⟨hseq, hfree, i, hi, he⟩
    · exact (ih hrun (hs.beginTurn.withPins p)).of_step hv
    · cases hheld : x.held with
      | true => exact ⟨[], ts, s, _, rfl, rfl, hs, hv, hrun, .tick hheld htick rfl⟩
      | false =>
        have idle : Alike x s.beginTurn.tick := by
          rw [State.tick_eq, if_neg (by simp [hs.beginTurn.held, hheld])]
          exact hs.beginTurn
        exact (ih hrun idle).of_step hv
    · exact ⟨[], ts, s, v, rfl, rfl, hs, hv, hrun, .sequencer (hs.held ▸ hfree) hseq i (hs.word ▸ hi) he⟩

/-! ## The states a command's run passes -/

/-- The run of the command from `s` by the turns `ts` to `t` passes a state alike `x`, after at least `n` ticks. -/
def Passes (s : State) (ts : List Turn) (t x : State) (n : Nat) : Prop :=
  ∃ (done todo : List Turn) (v : State), ts = done ++ todo ∧ Host.Core.run core done.length s = .next v ∧
    CommandRun v todo t ∧ Alike x v ∧ n ≤ ticksIn done

theorem CommandRun.passes (run : CommandRun s ts t) : Passes s ts t s 0 :=
  ⟨[], ts, s, rfl, rfl, run, .refl s, Nat.zero_le _⟩

theorem Passes.congr (h : Passes s ts t x n) (hy : Alike y x) : Passes s ts t y n := by
  obtain ⟨done, todo, v, hsplit, hdone, hrun, hv, hticks⟩ := h
  exact ⟨done, todo, v, hsplit, hdone, hrun, hy.trans hv, hticks⟩

/-- A quiescent state that is passed is the last. -/
theorem Passes.ends (h : Passes s ts t x n) (hx : x.cmdReady = true) : Alike x t ∧ n ≤ ticksIn ts := by
  obtain ⟨done, todo, v, rfl, -, hrun, hv, hticks⟩ := h
  obtain ⟨rfl, rfl⟩ := hrun.ends (hv.cmdReady.trans hx)
  exact ⟨hv, by simpa using hticks⟩

/-- The address of a micro-op other than WCMD is not quiescent. -/
theorem cmdReady_of_romOp (hop : romOp x.cfg x.upc = .ok i) (hi : i ≠ .wcmd) : x.cmdReady = false := by
  rw [← Bool.not_eq_true, State.cmdReady_eq_true]
  rintro (hu | hu)
  · rw [hu, (romOp_quiescent x.cfg).1, Except.ok.injEq] at hop
    exact hi hop.symm
  · rw [hu, (romOp_quiescent x.cfg).2, Except.ok.injEq] at hop
    exact hi hop.symm

/-- From a state that is not held the micro-op at its address is executed, whatever turns come before. -/
theorem Passes.op (h : Passes s ts t x n) (hrom : x.rom = []) (hfree : x.held = false)
    (hop : romOp x.cfg x.upc = .ok i) (hi : i ≠ .wcmd) :
    ∃ u v, Alike x u ∧ exec i u = .next v ∧ Passes s ts t v n ∧
      s.seesOnBuses ts x.upc u.pins.dataLow u.pins.dataHigh := by
  obtain ⟨done, todo, w, rfl, hdone, hrun, hw, hticks⟩ := h
  obtain ⟨idle, todo', u, v, rfl, hidle, hu, hstep, hrun', hcount⟩ :=
    hrun.meetsCountingTurn hw (cmdReady_of_romOp hop hi)
  have hreach : Host.Core.run core (done ++ idle).length s = .next u := by
    rw [List.length_append, run_add hdone, hidle]
  cases hcount with
  | tick held => simp [hfree] at held
  | sequencer _ hturn j hj he =>
    obtain rfl : j = i := by
      rw [hrom, Rom.word_nil] at hj
      exact Except.ok.inj (hj.symm.trans hop)
    have sees : s.seesOnBuses (done ++ (idle ++ u.nextTurn :: todo')) x.upc u.beginTurn.pins.dataLow
        u.beginTurn.pins.dataHigh :=
      ⟨(done ++ idle).length, u, by simp, hreach, hturn, hu.upc, by rw [State.beginTurn_pins],
        by rw [State.beginTurn_pins]⟩
    refine ⟨u.beginTurn, v, hu.beginTurn, he,
      ⟨done ++ idle ++ [u.nextTurn], todo', v, by simp, ?_, hrun', .refl v, ?_⟩, sees⟩
    · rw [List.length_append, run_add hreach]
      exact run_succ hstep
    · simp only [ticksIn, List.count_append] at hticks ⊢
      omega

/-- From a held state a tick comes, whatever turns come before. -/
theorem Passes.tick (h : Passes s ts t x n) (hready : x.cmdReady = false) (hheld : x.held = true) :
    Passes s ts t { x with waitCnt := x.waitCnt - 1#32 } (n + 1) := by
  obtain ⟨done, todo, w, rfl, hdone, hrun, hw, hticks⟩ := h
  obtain ⟨idle, todo', u, v, rfl, hidle, hu, hstep, hrun', hcount⟩ := hrun.meetsCountingTurn hw hready
  cases hcount with
  | sequencer free => simp [hheld] at free
  | tick _ hturn hnext =>
    refine ⟨done ++ idle ++ [u.nextTurn], todo', v, by simp, ?_, hrun', hnext ▸ hu.beginTurn.tick hheld, ?_⟩
    · rw [List.length_append, List.length_append, run_add (run_add hdone ▸ hidle)]
      exact run_succ hstep
    · simp only [ticksIn, List.count_append, hturn, List.count_singleton_self] at hticks ⊢
      omega

end Sys2Proof.Machine
end

section
/-! PROOFS. The micro-ops of the spec's ROM in the run of a command, under the nominal directions: where the run passes
one, it passes the state in which the micro-op is complete (`30_encoding.md` R92, `70_reset_and_hazards.md` R240). -/

namespace Sys2Proof.Machine

variable {s t x y : State} {ts : List Turn} {i : Instr} {n : Nat} {q : U32} {k : BitVec 3} {b : Bool} {c : Config}
  {a : StepAddr} {l : Line} {v : Bool} {o : Outputs}

/-- `x` stands between two micro-ops of the spec's ROM, with the nominal directions. -/
structure State.BetweenOps (x : State) : Prop where
  specRom : x.rom = []
  nominal : x.cfg.dir = .nominal
  waiting : x.waiting = false
  waitCnt : x.waitCnt = 0#32

/-- Where no WAIT stands a state that meets the invariant is between two micro-ops. -/
theorem State.Inv.betweenOps (h : x.Inv) (hn : x.cfg.dir = .nominal) (hop : romOp x.cfg x.upc = .ok i)
    (hi : ∀ k b, i ≠ .wait k b) : x.BetweenOps :=
  have hw := h.notWaiting_of_op hop hi
  ⟨h.specRom, hn, hw.1, hw.2⟩

theorem State.BetweenOps.held (hx : x.BetweenOps) : x.held = false := by simp [State.held, hx.waiting]

/-- What moves neither the ROM, the configuration nor the wait leads to a state between two micro-ops. -/
theorem State.BetweenOps.of_same (hx : x.BetweenOps) (rom : y.rom = x.rom) (cfg : y.cfg = x.cfg)
    (waiting : y.waiting = x.waiting) (waitCnt : y.waitCnt = x.waitCnt) : y.BetweenOps :=
  ⟨rom.trans hx.specRom, cfg ▸ hx.nominal, waiting.trans hx.waiting, waitCnt.trans hx.waitCnt⟩

/-- The micro-op at the address of a state between two micro-ops is executed. -/
theorem Passes.next (h : Passes s ts t x n) (hx : x.BetweenOps) (hop : romOp x.cfg x.upc = .ok i) (hi : i ≠ .wcmd) :
    ∃ u v, Alike x u ∧ exec i u = .next v ∧ Passes s ts t v n ∧
      s.seesOnBuses ts x.upc u.pins.dataLow u.pins.dataHigh :=
  h.op hx.specRom hx.held hop hi

/-! ## Operands under the nominal directions -/

/-- The lines that the spec's ROM sets are outputs with a register. -/
theorem set_operands (hn : c.dir = .nominal) (hop : romOp c a = .ok (.set l v)) :
    dirOf c l = .output ∧ ∃ o', o.write l v = some o' := by
  have hid := line_id_le_of_standsAt (romOp_standsAt hop)
  refine ⟨?_, Outputs.write_of_id_le hid⟩
  cases l with
  | reset | convst | companion | chipSelect | readStrobe => simp [dirOf, hn, Directions.nominal]
  | busy | dataLow | dataHigh => simp [Line.id] at hid

theorem pollable_busy (hn : c.dir = .nominal) : pollable c .busy = true := by
  simp [pollable_eq_true, hn, Directions.nominal]

theorem misconfiguredBus_of_nominal (hn : c.dir = .nominal) : misconfiguredBus c = none := by
  simp [misconfiguredBus_eq_none, hn, Directions.nominal]

/-- The time constant that a WAIT of the ROM selects. -/
def unitsOf (c : Config) (k : BitVec 3) : U32 := (timeConstant c k).getD 0#32

theorem timeConstant_of_romOp (hop : romOp c a = .ok (.wait k b)) : timeConstant c k = some (unitsOf c k) := by
  have hk : timeConstant c k ≠ none := by
    have hle : k.toNat ≤ 5 := of_decide_eq_true (encode_of_decode hop).1
    rw [ne_eq, timeConstant_eq_none]
    omega
  obtain ⟨n, hn⟩ := Option.ne_none_iff_exists'.1 hk
  rw [unitsOf, hn, Option.getD_some]

/-! ## SET, WAIT, POLL -/

/-- The state in which a SET of a line that can be driven is complete. -/
def State.drive (l : Line) (v : Bool) (x : State) : State :=
  { x with
    out := (x.out.write l v).getD x.out
    transcript := x.transcript ++ [.set l v]
    upc := x.upc + 1#6 }

/-- The state in which a WAIT is complete. -/
def State.pause (k : BitVec 3) (b : Bool) (x : State) : State :=
  { x with
    transcript := x.transcript ++ [.wait k (unitsOf x.cfg k)]
    upc := x.afterWait b }

/-- The state in which a POLL of BUSY that reads `v` goes on to the address `a`. -/
def State.poll (v : Bool) (a : StepAddr) (x : State) : State :=
  { x with
    transcript := x.transcript ++ [.readBit .busy v]
    pollCnt := x.pollCnt + 1#32
    upc := a }

@[simp] theorem State.drive_cfg (l : Line) (v : Bool) (x : State) : (x.drive l v).cfg = x.cfg := rfl
@[simp] theorem State.pause_cfg (k : BitVec 3) (b : Bool) (x : State) : (x.pause k b).cfg = x.cfg := rfl

/-- `SET` of a line that can be driven. -/
theorem execSet_eq (hd : dirOf s.cfg l = .output) (ho : s.out.write l v = some o) :
    exec (.set l v) s = .next (s.drive l v) := by
  have hdrive := State.driveLine_eq_some.2 ⟨o, ho, rfl⟩
  simp only [exec, execSet, hd, hdrive]
  simp [State.drive, ho, State.advance, State.goto]

theorem Passes.set (h : Passes s ts t x n) (hx : x.BetweenOps) (hop : romOp x.cfg x.upc = .ok (.set l v)) :
    Passes s ts t (x.drive l v) n := by
  obtain ⟨u, w, ⟨p, r, ag, m, rfl⟩, he, hw, -⟩ := h.next hx hop (by simp)
  obtain ⟨hd, o, ho⟩ := set_operands (o := x.out) hx.nominal hop
  obtain rfl := Host.Outcome.next.inj (he.symm.trans (execSet_eq hd ho))
  exact hw.congr ⟨p, r, ag, m, rfl⟩

/-- A wait that is owed `q` ticks ends after them. -/
theorem Passes.waitEnds (h : Passes s ts t { x with waiting := true, waitCnt := q } n) (hx : x.BetweenOps)
    (hop : romOp x.cfg x.upc = .ok (.wait k b)) :
    Passes s ts t { x with upc := x.afterWait b } (n + q.toNat) := by
  induction hq : q.toNat generalizing q n with
  | zero =>
    obtain rfl : q = 0#32 := BitVec.eq_of_toNat_eq hq
    obtain ⟨u, w, ⟨p, r, ag, m, rfl⟩, he, hw, -⟩ := h.op hx.specRom (by simp [State.held]) hop (by simp)
    obtain ⟨_, -, ⟨-, -, rfl⟩ | ⟨-, hne, -⟩ | ⟨hfalse, -, -⟩ | ⟨hfalse, -, -⟩⟩ := execWait_cases he
    · refine hw.congr ⟨p, r, ag, m, ?_⟩
      simp [hx.waiting, hx.waitCnt, State.afterWait]
    · exact absurd rfl hne
    · simp at hfalse
    · simp at hfalse
  | succ j ih =>
    have hne : q ≠ 0#32 := by rintro rfl; simp at hq
    have hlower : (q - 1#32).toNat = j := by bv_omega
    have hready : ({ x with waiting := true, waitCnt := q } : State).cmdReady = false :=
      cmdReady_of_romOp (x := x) hop (by simp)
    have h' := ih (h.tick hready (State.held_eq_true.2 ⟨rfl, hne⟩)) hlower
    rwa [Nat.add_assoc, Nat.add_comm 1] at h'

/-- A wait takes no fewer ticks than its time constant (`42_timing_ops.md` R164). -/
theorem Passes.wait (h : Passes s ts t x n) (hx : x.BetweenOps) (hop : romOp x.cfg x.upc = .ok (.wait k b)) :
    Passes s ts t (x.pause k b) (n + (unitsOf x.cfg k).toNat) := by
  obtain ⟨u, w, ⟨p, r, ag, m, rfl⟩, he, hw, -⟩ := h.next hx hop (by simp)
  obtain ⟨q, hq, hcases⟩ := execWait_cases he
  obtain rfl : unitsOf x.cfg k = q := Option.some.inj ((timeConstant_of_romOp hop).symm.trans hq)
  rcases hcases with ⟨htrue, -⟩ | ⟨htrue, -⟩ | ⟨-, hzero, rfl⟩ | ⟨-, -, rfl⟩
  · simp [hx.waiting] at htrue
  · simp [hx.waiting] at htrue
  · rw [show unitsOf x.cfg k = 0#32 from hzero]
    exact hw.congr ⟨p, r, ag, m, rfl⟩
  · let begun : State := { x with transcript := x.transcript ++ [.wait k (unitsOf x.cfg k)] }
    exact Passes.waitEnds (x := begun) (hw.congr ⟨p, r, ag, m, rfl⟩) (hx.of_same rfl rfl rfl rfl) hop

/-- A POLL of BUSY leaves the loop, or times out, or goes on to the wait of the loop. -/
theorem Passes.poll (h : Passes s ts t x n) (hx : x.BetweenOps) (hop : romOp x.cfg x.upc = .ok (.poll .busy false)) :
    Passes s ts t (x.poll false (x.upc + 2#6)) n ∨
    (x.pollCnt + 1#32 = x.cfg.maxBusyPolls ∧ Passes s ts t ((x.poll true x.upc).raise .timeout .busy) n) ∨
    (x.pollCnt + 1#32 ≠ x.cfg.maxBusyPolls ∧ Passes s ts t (x.poll true (x.upc + 1#6)) n) := by
  obtain ⟨u, w, ⟨p, r, ag, m, rfl⟩, he, hw, -⟩ := h.next hx hop (by simp)
  rcases execPoll_cases he with ⟨hd, -⟩ | ⟨-, ⟨hv, rfl⟩ | ⟨hv, hmax, rfl⟩ | ⟨hv, hmax, rfl⟩⟩
  · rw [pollable_busy hx.nominal] at hd
    simp at hd
  · exact .inl (hw.congr ⟨p, r, ag, m, by rw [hv]; rfl⟩)
  · exact .inr (.inl ⟨hmax, hw.congr ⟨p, r, ag, m, by rw [Bool.eq_true_of_not_eq_false hv]; rfl⟩⟩)
  · exact .inr (.inr ⟨hmax, hw.congr ⟨p, r, ag, m, by rw [Bool.eq_true_of_not_eq_false hv]; rfl⟩⟩)

/-! ## Straight stretches of the ROM: SETs and WAITs only -/

/-- A micro-op of a straight stretch. -/
inductive Act where
  | drive (l : Line) (v : Bool)
  | pause (k : BitVec 3)

def Act.instr : Act → Instr
  | .drive l v => .set l v
  | .pause k => .wait k false

/-- The event that it records. -/
def Act.event (c : Config) : Act → Event
  | .drive l v => .set l v
  | .pause k => .wait k (unitsOf c k)

/-- The output registers after it. -/
def Act.outputs (o : Outputs) : Act → Outputs
  | .drive l v => (o.write l v).getD o
  | .pause _ => o

/-- The ticks that it needs. -/
def Act.ticks (c : Config) : Act → Nat
  | .drive _ _ => 0
  | .pause k => (unitsOf c k).toNat

/-- The ticks that a stretch needs. -/
def ticksOf (c : Config) (as : List Act) : Nat := (as.map (Act.ticks c)).sum

/-- The state after a stretch. -/
def State.after (as : List Act) (x : State) : State :=
  { x with
    out := as.foldl Act.outputs x.out
    transcript := x.transcript ++ as.map (Act.event x.cfg)
    upc := x.upc + BitVec.ofNat 6 as.length }

/-- The spec's ROM holds the stretch from the address `a` on. -/
def StandFrom (c : Config) : StepAddr → List Act → Prop
  | _, [] => True
  | a, f :: as => romOp c a = .ok f.instr ∧ StandFrom c (a + 1#6) as

@[simp] theorem State.after_upc (as : List Act) (x : State) : (x.after as).upc = x.upc + BitVec.ofNat 6 as.length := rfl

theorem State.after_nil (x : State) : x.after [] = x := by simp [State.after]

theorem State.after_cons_drive (as : List Act) (x : State) :
    x.after (.drive l v :: as) = (x.drive l v).after as := by
  simp [State.after, State.drive, Act.outputs, Act.event, BitVec.ofNat_add, BitVec.add_assoc, BitVec.add_comm 1#6]

theorem State.after_cons_pause (as : List Act) (x : State) :
    x.after (.pause k :: as) = (x.pause k false).after as := by
  simp [State.after, State.pause, Act.outputs, Act.event, State.afterWait, BitVec.ofNat_add, BitVec.add_assoc,
    BitVec.add_comm 1#6]

/-- A run passes the end of a straight stretch once it passes its beginning. -/
theorem Passes.stretch {as : List Act} (h : Passes s ts t x n) (hx : x.BetweenOps) (has : StandFrom x.cfg x.upc as) :
    Passes s ts t (x.after as) (n + ticksOf x.cfg as) := by
  induction as generalizing x n with
  | nil => rwa [State.after_nil]
  | cons f as ih =>
    obtain ⟨hop, has⟩ := has
    cases f with
    | drive l v =>
      rw [State.after_cons_drive]
      have h' := ih (h.set hx hop) (hx.of_same rfl rfl rfl rfl) has
      simpa [ticksOf, Act.ticks] using h'
    | pause k =>
      rw [State.after_cons_pause]
      have h' := ih (h.wait hx hop) (hx.of_same rfl rfl rfl rfl) has
      simpa [ticksOf, Act.ticks, Nat.add_assoc] using h'

end Sys2Proof.Machine
end

section
/-! PROOFS. The two commands, from their acceptance to their end, under any schedule without HWRESET
(`40_host_commands.md` R112 to R115, R122 to R131, R135, `60_exceptions.md` R198). -/

namespace Sys2Proof.Machine

variable {s t x : State} {ts : List Turn} {i : Instr} {n : Nat} {c : Config} {a : StepAddr}
  {f : State → State} {lo hi : Byte}

/-! ## The straight stretches of the three routines -/

/-- 0x02 to 0x0B: the lines to the baseline, then the three-step reset. -/
def resetActs : List Act :=
  [.drive .chipSelect true, .drive .readStrobe true, .drive .convst false, .drive .companion false,
    .drive .reset true, .pause 0, .drive .reset false, .pause 0, .drive .reset true, .pause 0]

/-- 0x0E to 0x10: the conversion is started. -/
def startActs (c : Config) : List Act :=
  [.drive .companion c.companionAssertLevel, .drive .convst true, .pause 1]

/-- 0x13 to 0x18: the read window is opened. -/
def openActs (c : Config) : List Act :=
  [.drive .convst false, .drive .companion c.companionDeassertLevel, .drive .chipSelect false, .pause 3,
    .drive .readStrobe false, .pause 4]

/-- 0x1A to 0x1C: the read window is closed. -/
def closeActs : List Act := [.drive .readStrobe true, .pause 5, .drive .chipSelect true]

/-- 0x1F to 0x23: the lines are forced idle. -/
def abortActs : List Act :=
  [.drive .readStrobe true, .drive .chipSelect true, .drive .convst false, .drive .companion false,
    .drive .reset true]

/-- The micro-ops of the used addresses: the routines made of their stretches. -/
def romOps (c : Config) : List Instr :=
  List.flatten [
    [.wcmd, .wcmd],
    resetActs.map Act.instr, [bif c.diagReadback then .capture1 else .nop, .ret 1],
    (startActs c).map Act.instr, [.poll .busy false, .wait 2 true],
    (openActs c).map Act.instr, [.capture0], closeActs.map Act.instr, [.sample, .ret 1],
    abortActs.map Act.instr, [.ret2]]

/-- They are those of the table of R92. -/
theorem romOp_of_romOps (h : (romOps c)[a.toNat]? = some i) : romOp c a = .ok i := by
  have table : (List.range 64).map (fun n => romOp c (BitVec.ofNat 6 n)) =
      (romOps c ++ List.replicate 27 (Instr.ret 0)).map .ok := (romImageIsTheTableOfR92 c).2.1
  have entry := congrArg (·[a.toNat]?) table
  have hlt : a.toNat < (romOps c).length := (List.getElem?_eq_some_iff.1 h).1
  simpa only [List.getElem?_map, List.getElem?_append_left hlt, h, List.getElem?_range a.isLt, Option.map_some,
    BitVec.ofNat_toNat, BitVec.setWidth_eq, Option.some.injEq] using entry

/-- A stretch that the list of micro-ops goes on with stands in the ROM. -/
theorem standFrom_of_drop {as : List Act} (h : as.map Act.instr <+: (romOps c).drop a.toNat) : StandFrom c a as := by
  induction as generalizing a with
  | nil => trivial
  | cons f as ih =>
    obtain ⟨rest, h⟩ := h
    have hop : (romOps c)[a.toNat]? = some f.instr := by
      rw [← Nat.add_zero a.toNat, ← List.getElem?_drop, ← h]
      rfl
    have hlt : a.toNat < 37 := (List.getElem?_eq_some_iff.1 hop).1
    have hnext : (a + 1#6).toNat = a.toNat + 1 := by bv_omega
    refine ⟨romOp_of_romOps hop, ih ⟨rest, ?_⟩⟩
    rw [hnext, ← List.drop_drop, ← h]
    rfl

theorem resetActs_stand (c : Config) : StandFrom c 0x02#6 resetActs := standFrom_of_drop ⟨_, rfl⟩
theorem startActs_stand (c : Config) : StandFrom c 0x0E#6 (startActs c) := standFrom_of_drop ⟨_, rfl⟩
theorem openActs_stand (c : Config) : StandFrom c 0x13#6 (openActs c) := standFrom_of_drop ⟨_, rfl⟩
theorem closeActs_stand (c : Config) : StandFrom c 0x1A#6 closeActs := standFrom_of_drop ⟨_, rfl⟩
theorem abortActs_stand (c : Config) : StandFrom c 0x1F#6 abortActs := standFrom_of_drop ⟨_, rfl⟩

/-! ## The captures, SAMPLE and the returns -/

/-- The state after the Sample capture of `lo` and `hi`. -/
def State.captureSample (lo hi : Byte) (x : State) : State :=
  { x with
    lowByte := lo
    highByte := hi
    transcript := x.transcript ++ [.readByte .dataLow lo, .readByte .dataHigh hi]
    upc := x.upc + 1#6 }

/-- The state after the diagnostic capture of `lo` and `hi`. -/
def State.captureDiagnostic (lo hi : Byte) (x : State) : State :=
  { x with
    diagLow := lo
    diagHigh := hi
    diagValid := true
    transcript := x.transcript ++
      [.readByte .dataLow lo, .readByte .dataHigh hi, .report .initial (combine x.cfg.combineLegacyMul lo hi)]
    report := some (.initial, combine x.cfg.combineLegacyMul lo hi)
    upc := x.upc + 1#6 }

/-- The state after 0x0C, with `lo` and `hi` on the buses. -/
def State.readBack (lo hi : Byte) (x : State) : State :=
  if x.cfg.diagReadback then x.captureDiagnostic lo hi else x.advance

/-- The state after `SAMPLE`. -/
def State.takeSample (x : State) : State :=
  { x with
    sample := combine x.cfg.combineLegacyMul x.lowByte x.highByte
    sampleValid := true
    transcript := x.transcript ++ [.report .postConversion (combine x.cfg.combineLegacyMul x.lowByte x.highByte)]
    report := some (.postConversion, combine x.cfg.combineLegacyMul x.lowByte x.highByte)
    upc := x.upc + 1#6 }

@[simp] theorem State.captureSample_upc (lo hi : Byte) (x : State) : (x.captureSample lo hi).upc = x.upc + 1#6 := rfl
@[simp] theorem State.takeSample_upc (x : State) : x.takeSample.upc = x.upc + 1#6 := rfl

theorem execCapture0_eq (hn : x.cfg.dir = .nominal) :
    exec .capture0 x = .next (x.captureSample x.pins.dataLow x.pins.dataHigh) := by
  simp only [exec, execCapture0, misconfiguredBus_of_nominal hn, State.recordBuses_eq]
  rfl

theorem execReadBack_eq (hn : x.cfg.dir = .nominal) :
    exec (bif x.cfg.diagReadback then .capture1 else .nop) x =
      .next (x.readBack x.pins.dataLow x.pins.dataHigh) := by
  cases hd : x.cfg.diagReadback with
  | false => simp [exec, execNop, State.readBack, hd]
  | true =>
    simp only [exec, execCapture1, cond_true, misconfiguredBus_of_nominal hn, State.recordBuses_eq, State.readBack,
      hd, if_true]
    simp [State.captureDiagnostic, State.emitReport, State.emit, State.advance, State.goto]

theorem execSample_eq (x : State) : exec .sample x = .next x.takeSample := rfl

/-- A micro-op that samples no input port. -/
theorem Passes.unsampled (h : Passes s ts t x n) (hx : x.BetweenOps) (hop : romOp x.cfg x.upc = .ok i)
    (hi : i ≠ .wcmd) (hf : ∀ u, exec i u = .next (f u))
    (alike : ∀ p r ag m, Alike (f x) (f { x with pins := p, report := r, agenda := ag, turnNo := m })) :
    Passes s ts t (f x) n := by
  obtain ⟨u, w, ⟨p, r, ag, m, rfl⟩, he, hw, -⟩ := h.next hx hop hi
  obtain rfl := Host.Outcome.next.inj ((hf _).symm.trans he)
  exact hw.congr (alike p r ag m)

theorem Passes.sample (h : Passes s ts t x n) (hx : x.BetweenOps) (hu : x.upc = 0x1D#6) :
    Passes s ts t x.takeSample n :=
  h.unsampled hx (romOp_of_romOps (by rw [hu]; rfl)) (by simp) execSample_eq fun _ _ _ _ => ⟨_, _, _, _, rfl⟩

theorem Passes.ret (h : Passes s ts t x n) (hx : x.BetweenOps) (hop : romOp x.cfg x.upc = .ok (.ret 1)) :
    Passes s ts t (x.goto 0x01#6) n :=
  h.unsampled hx hop (by simp) (fun _ => rfl) fun _ _ _ _ => ⟨_, _, _, _, rfl⟩

theorem Passes.ret2 (h : Passes s ts t x n) (hx : x.BetweenOps) (hu : x.upc = 0x24#6) :
    Passes s ts t x.endAbort n :=
  h.unsampled hx (romOp_of_romOps (by rw [hu]; rfl)) (by simp) (fun _ => rfl) fun _ _ _ _ => ⟨_, _, _, _, rfl⟩

/-- `CAPTURE 0` takes the bytes that stand on the buses in its own turn. -/
theorem Passes.capture0 (h : Passes s ts t x n) (hx : x.BetweenOps) (hu : x.upc = 0x19#6) :
    ∃ lo hi, s.seesOnBuses ts 0x19#6 lo hi ∧ Passes s ts t (x.captureSample lo hi) n := by
  have hop : romOp x.cfg x.upc = .ok .capture0 := romOp_of_romOps (by rw [hu]; rfl)
  obtain ⟨u, w, ⟨p, r, ag, m, rfl⟩, he, hw, sees⟩ := h.next hx hop (by simp)
  obtain rfl := Host.Outcome.next.inj (he.symm.trans (execCapture0_eq hx.nominal))
  exact ⟨_, _, hu ▸ sees, hw.congr ⟨p, r, ag, m, rfl⟩⟩

/-- The diagnostic read-back takes the bytes that stand on the buses in its own turn. -/
theorem Passes.readBack (h : Passes s ts t x n) (hx : x.BetweenOps) (hu : x.upc = 0x0C#6) :
    ∃ lo hi, s.seesOnBuses ts 0x0C#6 lo hi ∧ Passes s ts t (x.readBack lo hi) n := by
  have hop : romOp x.cfg x.upc = .ok (bif x.cfg.diagReadback then .capture1 else .nop) :=
    romOp_of_romOps (by rw [hu]; rfl)
  obtain ⟨u, w, ⟨p, r, ag, m, rfl⟩, he, hw, sees⟩ := h.next hx hop (by cases x.cfg.diagReadback <;> simp)
  have heq := execReadBack_eq (x := { x with pins := p, report := r, agenda := ag, turnNo := m }) hx.nominal
  obtain rfl := Host.Outcome.next.inj (he.symm.trans heq)
  refine ⟨_, _, hu ▸ sees, hw.congr ?_⟩
  unfold State.readBack
  split <;> exact ⟨_, _, _, _, rfl⟩

/-! ## The poll loop -/

/-- The state at the POLL after `k` busy answers, each followed by its wait. -/
def State.busyAnswers (k : Nat) (x : State) : State :=
  { x with
    transcript := x.transcript ++ busyEvents x.cfg k
    pollCnt := x.pollCnt + BitVec.ofNat 32 k
    upc := 0x11#6 }

/-- The busy answers from the next POLL on. -/
theorem State.busyAnswers_succ (k : Nat) (x : State) :
    x.busyAnswers (k + 1) = ((x.poll true 0x12#6).pause 2 true).busyAnswers k := by
  simp [State.busyAnswers, State.poll, State.pause, busyEvents, unitsOf, timeConstant, BitVec.ofNat_add,
    BitVec.add_assoc, BitVec.add_comm 1#32]

/-- From its first POLL the loop ends after some number `k` of busy answers: BUSY is found at 0, or it is found at 1 in
the last POLL that the bound allows. -/
theorem Passes.pollLoop (h : Passes s ts t x n) (hx : x.BetweenOps) (hu : x.upc = 0x11#6)
    (hroom : x.pollCnt.toNat < x.cfg.maxBusyPolls.toNat) :
    ∃ k, x.pollCnt.toNat + k + 1 ≤ x.cfg.maxBusyPolls.toNat ∧
      (Passes s ts t ((x.busyAnswers k).poll false 0x13#6) (n + k * x.cfg.tBusyPoll.toNat) ∨
        x.pollCnt.toNat + k + 1 = x.cfg.maxBusyPolls.toNat ∧
          Passes s ts t (((x.busyAnswers k).poll true 0x11#6).raise .timeout .busy)
            (n + k * x.cfg.tBusyPoll.toNat)) := by
  induction hm : x.cfg.maxBusyPolls.toNat - x.pollCnt.toNat generalizing x n with
  | zero => omega
  | succ m ih =>
    have hnone (v : Bool) (a : StepAddr) : (x.busyAnswers 0).poll v a = x.poll v a := by
      simp [State.busyAnswers, State.poll, busyEvents]
    have hcount : (x.pollCnt + 1#32).toNat = x.pollCnt.toNat + 1 := by bv_omega
    have hop : romOp x.cfg x.upc = .ok (.poll .busy false) := romOp_of_romOps (by rw [hu]; rfl)
    rcases h.poll hx hop with hdone | ⟨hmax, hout⟩ | ⟨hmax, hbusy⟩
    · refine ⟨0, by omega, .inl ?_⟩
      rw [hnone, Nat.zero_mul, Nat.add_zero]
      rwa [hu] at hdone
    · refine ⟨0, by omega, .inr ⟨by rw [← hmax, hcount, Nat.add_zero], ?_⟩⟩
      rw [hnone, Nat.zero_mul, Nat.add_zero]
      rwa [hu] at hout
    · rw [hu] at hbusy
      let again : State := (x.poll true 0x12#6).pause 2 true
      have hcfg : again.cfg = x.cfg := rfl
      have hpolls : again.pollCnt.toNat = x.pollCnt.toNat + 1 := hcount
      have hstay : again.pollCnt.toNat ≠ x.cfg.maxBusyPolls.toNat := fun heq => hmax (BitVec.eq_of_toNat_eq heq)
      have hu' : again.upc = 0x11#6 := by simp [again, State.pause, State.afterWait, State.poll]
      have hwait : Passes s ts t again (n + x.cfg.tBusyPoll.toNat) :=
        hbusy.wait (k := 2) (b := true) (hx.of_same rfl rfl rfl rfl) (romOp_of_romOps rfl)
      obtain ⟨k, hk, hend⟩ := ih hwait (hx.of_same rfl rfl rfl rfl) hu' (by rw [hcfg]; omega) (by rw [hcfg]; omega)
      have hticks : n + x.cfg.tBusyPoll.toNat + k * x.cfg.tBusyPoll.toNat = n + (k + 1) * x.cfg.tBusyPoll.toNat := by
        rw [Nat.succ_mul, Nat.add_assoc, Nat.add_comm (k * _)]
      rw [hcfg, ← State.busyAnswers_succ, hticks] at hend
      rw [hcfg] at hk
      exact ⟨k + 1, by omega, hend.imp_right fun ⟨hlast, hout⟩ => ⟨by omega, hout⟩⟩

end Sys2Proof.Machine
end

section
/-! PROOFS. A command that ends, ends as stated, whatever the schedule (`40_host_commands.md` R112 to R115, R122 to
R131, R135, `60_exceptions.md` R191, R198, R199). -/

namespace Sys2Proof.Machine

variable {s t x : State} {ts : List Turn} {n k : Nat} {lo hi : Byte}

/-! ## The reset routine -/

/-- The end of the reset routine from its first address, with `lo` and `hi` on the buses at 0x0C. -/
def State.resetDone (lo hi : Byte) (x : State) : State := ((x.after resetActs).readBack lo hi).goto 0x01#6

/-- All that the reset routine does, for either value of `DIAG_READBACK`. -/
theorem State.resetDone_eq (lo hi : Byte) (x : State) :
    x.resetDone lo hi = { x with
      upc := 0x01#6
      out := { reset := true, convst := false, companion := false, chipSelect := true, readStrobe := true }
      diagValid := x.cfg.diagReadback || x.diagValid
      diagLow := if x.cfg.diagReadback then lo else x.diagLow
      diagHigh := if x.cfg.diagReadback then hi else x.diagHigh
      transcript := x.transcript ++ resetEvents x.cfg lo hi
      report := if x.cfg.diagReadback then some (.initial, combine x.cfg.combineLegacyMul lo hi) else x.report } := by
  cases hd : x.cfg.diagReadback <;>
    simp [State.resetDone, State.readBack, State.after, hd, State.captureDiagnostic, State.advance, State.goto,
      resetActs, resetEvents, Act.event, Act.outputs, Outputs.write, unitsOf, timeConstant]

theorem State.BetweenOps.readBack (hx : x.BetweenOps) (lo hi : Byte) : (x.readBack lo hi).BetweenOps := by
  unfold State.readBack
  split <;> exact hx.of_same rfl rfl rfl rfl

theorem State.readBack_upc (lo hi : Byte) (x : State) : (x.readBack lo hi).upc = x.upc + 1#6 := by
  unfold State.readBack
  split <;> rfl

theorem State.readBack_cfg (lo hi : Byte) (x : State) : (x.readBack lo hi).cfg = x.cfg := by
  unfold State.readBack
  split <;> rfl

theorem State.readBack_pins (lo hi : Byte) (x : State) : (x.readBack lo hi).pins = x.pins := by
  unfold State.readBack
  split <;> rfl

/-- From its first address the reset routine runs to its end. -/
theorem Passes.resetRoutine (h : Passes s ts t x n) (hx : x.BetweenOps) (hu : x.upc = 0x02#6) :
    ∃ lo hi, s.seesOnBuses ts 0x0C#6 lo hi ∧ Passes s ts t (x.resetDone lo hi) (n + ticksOf x.cfg resetActs) := by
  have hlines := h.stretch hx (hu ▸ resetActs_stand x.cfg)
  have hx1 : (x.after resetActs).BetweenOps := hx.of_same rfl rfl rfl rfl
  have hu1 : (x.after resetActs).upc = 0x0C#6 := by simp [hu, resetActs]
  obtain ⟨lo, hi, sees, hread⟩ := hlines.readBack hx1 hu1
  refine ⟨lo, hi, sees, hread.ret (hx1.readBack lo hi) (romOp_of_romOps ?_)⟩
  rw [State.readBack_upc, hu1]
  rfl

/-! ## The acquisition routine -/

/-- The state at the poll loop's end after `k` busy answers, from the acquisition's first address. -/
def State.polled (k : Nat) (x : State) : State := (x.after (startActs x.cfg)).busyAnswers k

/-- The end of the read window from 0x13, with `lo` and `hi` on the buses at 0x19. -/
def State.readOut (lo hi : Byte) (x : State) : State :=
  (((x.after (openActs x.cfg)).captureSample lo hi).after closeActs).takeSample.goto 0x01#6

/-- The end of an acquisition after `k` busy answers. -/
def State.acquired (k : Nat) (lo hi : Byte) (x : State) : State := ((x.polled k).poll false 0x13#6).readOut lo hi

/-- The end of an acquisition that times out after `k` busy answers and one more. -/
def State.timedOut (k : Nat) (x : State) : State :=
  ((((x.polled k).poll true 0x11#6).raise .timeout .busy).after abortActs).endAbort

/-- All that a successful acquisition does. -/
theorem State.acquired_eq (k : Nat) (lo hi : Byte) (x : State) :
    x.acquired k lo hi = { x with
      upc := 0x01#6
      out := { reset := x.out.reset, convst := false, companion := x.cfg.companionDeassertLevel
               chipSelect := true, readStrobe := true }
      pollCnt := x.pollCnt + BitVec.ofNat 32 (k + 1)
      lowByte := lo
      highByte := hi
      sample := combine x.cfg.combineLegacyMul lo hi
      sampleValid := true
      transcript := x.transcript ++ acquisitionEvents x.cfg k lo hi
      report := some (.postConversion, combine x.cfg.combineLegacyMul lo hi) } := by
  simp [State.acquired, State.readOut, State.polled, State.busyAnswers, State.poll, State.captureSample,
    State.takeSample, State.after, State.goto, startActs, openActs, closeActs, acquisitionEvents, Act.event,
    Act.outputs, Outputs.write, unitsOf, timeConstant, BitVec.ofNat_add, BitVec.add_assoc]

/-- All that a timeout does, the abort routine included. -/
theorem State.timedOut_eq (k : Nat) (x : State) :
    x.timedOut k = { x with
      upc := if x.cmdLat = 0b01#2 then 0x00#6 else 0x01#6
      out := { reset := true, convst := false, companion := false, chipSelect := true, readStrobe := true }
      pollCnt := x.pollCnt + BitVec.ofNat 32 (k + 1)
      err := .timeout
      errLine := 5#3
      aborting := false
      waiting := false
      waitCnt := 0#32
      transcript := x.transcript ++ timeoutEvents x.cfg k
      report := some (.error, 0x0501#16) } := by
  simp [State.timedOut, State.polled, State.busyAnswers, State.poll, State.after, State.raise, State.endAbort,
    State.emitReport, State.emit, startActs, abortActs, timeoutEvents, Act.event, Act.outputs, Outputs.write,
    unitsOf, timeConstant, BitVec.ofNat_add, BitVec.add_assoc, errorValue, ErrKind.code, Line.id]

/-- From the exit of the poll loop the acquisition runs to its end. -/
theorem Passes.readWindow (h : Passes s ts t x n) (hx : x.BetweenOps) (hu : x.upc = 0x13#6) :
    ∃ lo hi, s.seesOnBuses ts 0x19#6 lo hi ∧
      Passes s ts t (x.readOut lo hi) (n + ticksOf x.cfg (openActs x.cfg) + ticksOf x.cfg closeActs) := by
  have hopen := h.stretch hx (hu ▸ openActs_stand x.cfg)
  have hx1 : (x.after (openActs x.cfg)).BetweenOps := hx.of_same rfl rfl rfl rfl
  have hu1 : (x.after (openActs x.cfg)).upc = 0x19#6 := by simp [hu, openActs]
  obtain ⟨lo, hi, sees, hcapture⟩ := hopen.capture0 hx1 hu1
  have hx2 : ((x.after (openActs x.cfg)).captureSample lo hi).BetweenOps := hx1.of_same rfl rfl rfl rfl
  have hu2 : ((x.after (openActs x.cfg)).captureSample lo hi).upc = 0x1A#6 := by
    rw [State.captureSample_upc, hu1]
    rfl
  have hclose := hcapture.stretch hx2 (hu2 ▸ closeActs_stand x.cfg)
  have hx3 : (((x.after (openActs x.cfg)).captureSample lo hi).after closeActs).BetweenOps :=
    hx2.of_same rfl rfl rfl rfl
  have hu3 : (((x.after (openActs x.cfg)).captureSample lo hi).after closeActs).upc = 0x1D#6 := by
    rw [State.after_upc, hu2]
    rfl
  refine ⟨lo, hi, sees, (hclose.sample hx3 hu3).ret (hx3.of_same rfl rfl rfl rfl) (romOp_of_romOps ?_)⟩
  rw [State.takeSample_upc, hu3]
  rfl

/-- From the timeout of its poll loop the acquisition runs through the abort routine. -/
theorem Passes.abortRoutine (h : Passes s ts t x n) (hx : x.BetweenOps) (hu : x.upc = 0x1F#6) :
    Passes s ts t (x.after abortActs).endAbort n :=
  (h.stretch hx (hu ▸ abortActs_stand x.cfg)).ret2 (hx.of_same rfl rfl rfl rfl) (by simp [hu, abortActs])

/-- From its first address the acquisition routine runs to its end or to the end of the abort routine. -/
theorem Passes.acquisitionRoutine (h : Passes s ts t x n) (hx : x.BetweenOps) (hu : x.upc = 0x0E#6)
    (hpoll : x.pollCnt = 0#32) (hl : x.cfg.Legal) :
    ∃ k, k + 1 ≤ x.cfg.maxBusyPolls.toNat ∧
      ((∃ lo hi, s.seesOnBuses ts 0x19#6 lo hi ∧
          Passes s ts t (x.acquired k lo hi) (n + ticksOf x.cfg (startActs x.cfg) + k * x.cfg.tBusyPoll.toNat +
            ticksOf x.cfg (openActs x.cfg) + ticksOf x.cfg closeActs)) ∨
        k + 1 = x.cfg.maxBusyPolls.toNat ∧
          Passes s ts t (x.timedOut k) (n + ticksOf x.cfg (startActs x.cfg) + k * x.cfg.tBusyPoll.toNat)) := by
  have hstart := h.stretch hx (hu ▸ startActs_stand x.cfg)
  have hx1 : (x.after (startActs x.cfg)).BetweenOps := hx.of_same rfl rfl rfl rfl
  have hu1 : (x.after (startActs x.cfg)).upc = 0x11#6 := by simp [hu, startActs]
  have hroom : x.pollCnt.toNat < x.cfg.maxBusyPolls.toNat := by simpa [hpoll] using maxBusyPolls_pos hl
  obtain ⟨k, hk, hend⟩ := hstart.pollLoop hx1 hu1 hroom
  have hzero : (x.after (startActs x.cfg)).pollCnt.toNat = 0 := by simp [State.after, hpoll]
  rw [hzero, Nat.zero_add] at hk hend
  have hx2 : (x.polled k).BetweenOps := hx1.of_same rfl rfl rfl rfl
  exact ⟨k, hk, hend.imp (fun hexit => hexit.readWindow (hx2.of_same rfl rfl rfl rfl) rfl)
    fun ⟨hlast, hout⟩ => ⟨hlast, hout.abortRoutine ⟨hx2.specRom, hx2.nominal, rfl, rfl⟩ rfl⟩⟩

/-! ## The end of a command -/

/-- Inside the reset and the acquisition routine the sample is not valid. -/
theorem State.Inv.sampleValid_of_upc (h : s.Inv) (h1 : s.upc ≠ 0x1E#6) (h2 : s.upc ≠ 0x01#6) :
    s.sampleValid = false := by
  rw [← Bool.not_eq_true]
  exact fun hv => (h.sampleMeaningful hv).elim h1 h2

/-- The ticks of the stretches are those of their waits. -/
theorem ticksOf_resetActs (c : Config) : ticksOf c resetActs = 3 * c.tReset.toNat := by
  simp [ticksOf, resetActs, Act.ticks, unitsOf, timeConstant]
  omega

theorem ticksOf_startActs (c : Config) : ticksOf c (startActs c) = c.tConvstSettle.toNat := by
  simp [ticksOf, startActs, Act.ticks, unitsOf, timeConstant]

theorem ticksOf_openActs (c : Config) : ticksOf c (openActs c) = c.tCsSettle.toNat + c.tRdPulse.toNat := by
  simp [ticksOf, openActs, Act.ticks, unitsOf, timeConstant]

theorem ticksOf_closeActs (c : Config) : ticksOf c closeActs = c.tRdRelease.toNat := by
  simp [ticksOf, closeActs, Act.ticks, unitsOf, timeConstant]

/-- The polls of an acquisition, counted from 0, are within the bound's width. -/
theorem toNat_pollCount {p q : U32} (hp : p = 0#32) (hk : k + 1 ≤ q.toNat) :
    (p + BitVec.ofNat 32 (k + 1)).toNat = k + 1 := by
  rw [hp, BitVec.zero_add, BitVec.toNat_ofNat, Nat.mod_eq_of_lt (lt_of_le_of_lt hk q.isLt)]

/-- Settles O60: the run passes the states after each part of the routine, up to a quiescent one, which is its last. -/
theorem commandsEndAsStatedUnderEverySchedule : Obligations.CommandsEndAsStatedUnderEverySchedule := by
  constructor
  · intro s t ts hinv hn hu run
    have hop : romOp s.cfg s.upc = .ok (.set .chipSelect true) := romOp_of_romOps (by rw [hu]; rfl)
    obtain ⟨lo, hi, sees, hend⟩ := run.passes.resetRoutine (hinv.betweenOps hn hop (by simp)) hu
    obtain ⟨⟨p, r, ag, m, rfl⟩, hticks⟩ := hend.ends rfl
    have hinvalid : s.sampleValid = false := hinv.sampleValid_of_upc (by simp [hu]) (by simp [hu])
    rw [ticksOf_resetActs, Nat.zero_add] at hticks
    rw [State.resetDone_eq]
    refine ⟨lo, hi, sees, hticks, rfl, rfl, rfl, rfl, rfl, hinvalid, rfl, rfl, rfl, rfl, ?_, ?_⟩ <;> intro hd <;>
      simp [hd]
  · intro s t ts hinv hn hu hpoll run
    have hop : romOp s.cfg s.upc = .ok (.set .companion s.cfg.companionAssertLevel) :=
      romOp_of_romOps (by rw [hu]; rfl)
    have hinvalid : s.sampleValid = false := hinv.sampleValid_of_upc (by simp [hu]) (by simp [hu])
    have hlat : s.cmdLat ≠ 0b01#2 := by simp [hinv.triggerLatched (by simp [State.within, hu])]
    obtain ⟨k, hk, ⟨lo, hi, sees, hend⟩ | ⟨hlast, hend⟩⟩ :=
      run.passes.acquisitionRoutine (hinv.betweenOps hn hop (by simp)) hu hpoll hinv.legal
    · obtain ⟨⟨p, r, ag, m, rfl⟩, hticks⟩ := hend.ends rfl
      rw [ticksOf_startActs, ticksOf_openActs, ticksOf_closeActs, Nat.zero_add, ← Nat.add_assoc] at hticks
      rw [State.acquired_eq]
      exact ⟨rfl, rfl, rfl, rfl, k, hk, toNat_pollCount hpoll hk, .inl ⟨lo, hi, sees, hticks, rfl, rfl, rfl, rfl,
        rfl, rfl, rfl, rfl⟩⟩
    · rw [State.timedOut_eq, if_neg hlat] at hend
      obtain ⟨⟨p, r, ag, m, rfl⟩, hticks⟩ := hend.ends rfl
      rw [ticksOf_startActs, Nat.zero_add] at hticks
      exact ⟨rfl, rfl, rfl, rfl, k, hk, toNat_pollCount hpoll hk, .inr ⟨hlast, hticks, rfl, rfl, rfl, rfl, rfl, rfl,
        rfl, hinvalid⟩⟩

end Sys2Proof.Machine
end

section
/-! PROOFS. Routines on one schedule (log 1): the turns that a micro-op needs carry it to its end
(`70_reset_and_hazards.md` R240). -/

namespace Sys2Proof.Machine

variable {x y z : State} {ts us rest : List Turn} {i : Instr} {q : U32} {k : BitVec 3} {b : Bool} {c : Config}
  {a : Turn} {l : Line} {v : Bool} {lo hi : Byte}

/-! ## Turns that lead from one state to another -/

/-- The turns `ts`, when they are next on the schedule, carry `x` to `y`. -/
def Takes (x : State) (ts : List Turn) (y : State) : Prop :=
  ∀ rest, Host.Core.run core ts.length ({ x with agenda := ts ++ rest } : State) =
    .next ({ y with agenda := rest } : State)

theorem Takes.refl (x : State) : Takes x [] x := fun _ => rfl

theorem Takes.trans (h : Takes x ts y) (h' : Takes y us z) : Takes x (ts ++ us) z := by
  intro rest
  rw [List.length_append, List.append_assoc, run_add (h (us ++ rest)), h' rest]

theorem Takes.of_step (h : ∀ rest, step { x with agenda := a :: rest } = .next { y with agenda := rest }) :
    Takes x [a] y :=
  fun rest => run_succ (n := 0) (h rest)

theorem Takes.run (h : Takes x ts y) (ha : x.agenda = ts ++ rest) :
    Host.Core.run core ts.length x = .next ({ y with agenda := rest } : State) := by
  rw [← h rest, ← ha]

/-- Every turn clears the Report port. -/
theorem Takes.of_cleared (h : Takes { x with report := none } (a :: ts) y) : Takes x (a :: ts) y := by
  intro rest
  obtain ⟨u, hu, hrun⟩ := run_succ_eq_next.1 (h rest)
  exact (run_succ hu).trans hrun

/-! ## One turn -/

/-- Under a legal configuration, with `hwreset_i` released and nothing on the Report port. -/
structure State.Runnable (x : State) : Prop where
  legal : x.cfg.Legal
  released : x.pins.hwreset = false
  silent : x.report = none

/-- What moves neither the configuration, `hwreset_i` nor the Report port keeps this. -/
theorem State.Runnable.of_same (hr : x.Runnable) (cfg : y.cfg = x.cfg) (pins : y.pins.hwreset = x.pins.hwreset)
    (report : y.report = x.report) : y.Runnable :=
  ⟨cfg ▸ hr.legal, pins.trans hr.released, report.trans hr.silent⟩

/-- With nothing on the Report port, beginning a turn takes the turn from the agenda only. -/
theorem State.Runnable.beginTurn (hr : x.Runnable) (a : Turn) (rest : List Turn) :
    ({ x with agenda := a :: rest } : State).beginTurn = { x with agenda := rest } := by
  rw [State.beginTurn_eq, ← hr.silent]
  rfl

/-- The Sequencer's turn where it is not held. -/
theorem Takes.op (hr : x.Runnable) (hrom : x.rom = []) (hfree : x.held = false) (hop : romOp x.cfg x.upc = .ok i)
    (he : ∀ rest, exec i { x with agenda := rest } = .next { y with agenda := rest }) : Takes x [.sequencer] y := by
  refine .of_step fun rest => ?_
  have hword : x.rom.word x.cfg x.upc.toNat = romWord x.cfg x.upc.toNat := by rw [hrom, Rom.word_nil]
  rw [step_eq_exec (s := { x with agenda := .sequencer :: rest }) hr.legal rfl hr.released hfree hword hop,
    hr.beginTurn]
  exact he rest

/-- A turn of an outside agent. -/
theorem Takes.outside (hr : x.Runnable) (ha : a ≠ .sequencer)
    (hy : ∀ rest, State.outsideTurn a { x with agenda := rest } = { y with agenda := rest }) : Takes x [a] y := by
  refine .of_step fun rest => ?_
  rw [step_of_outsideTurn (s := { x with agenda := a :: rest }) hr.legal rfl ha, hr.beginTurn]
  exact congrArg _ (hy rest)

/-- The state with other levels on the Device's ports. -/
def State.withDevice (busy : Bool) (lo hi : Byte) (x : State) : State :=
  { x with pins := { x.pins with busy := busy, dataLow := lo, dataHigh := hi } }

/-- The Device's turn. -/
theorem Takes.device (hr : x.Runnable) (busy : Bool) (lo hi : Byte) :
    Takes x [.device busy lo hi] (x.withDevice busy lo hi) :=
  .outside hr (by simp) fun rest =>
    State.outsideTurn_device_of_released (s := { x with agenda := rest }) hr.released busy lo hi

/-- The ticks that a wait is owed. -/
theorem Takes.ticks (hr : x.Runnable) :
    Takes { x with waiting := true, waitCnt := q } (List.replicate q.toNat .tick)
      { x with waiting := true, waitCnt := 0#32 } := by
  induction hq : q.toNat generalizing q with
  | zero =>
    obtain rfl : q = 0#32 := BitVec.eq_of_toNat_eq hq
    exact .refl _
  | succ j ih =>
    have hne : q ≠ 0#32 := by rintro rfl; simp at hq
    have hlower : (q - 1#32).toNat = j := by bv_omega
    rw [List.replicate_succ]
    refine Takes.trans (ts := [.tick]) (.outside (hr.of_same rfl rfl rfl) (by simp) fun rest => ?_) (ih hlower)
    simp [State.outsideTurn, hr.released, State.tick_eq, State.held, hne]

/-! ## One micro-op -/

theorem execWait_begin {s : State} (hk : timeConstant s.cfg k = some q) (hw : s.waiting = false) :
    exec (.wait k b) s = .next (s.beginWait k q b) := by
  simp [exec, execWait, hk, hw]

theorem execWait_end {s : State} (hk : timeConstant s.cfg k = some q) (hw : s.waiting = true) (hc : s.waitCnt = 0#32) :
    exec (.wait k b) s = .next (s.endWait b) := by
  simp [exec, execWait, hk, hw, hc]

theorem execPoll_done {s : State} (hn : s.cfg.dir = .nominal) (hv : s.pins.busy = false) :
    exec (.poll .busy false) s = .next (s.poll false (s.upc + 2#6)) := by
  simp only [exec, execPoll, pollable_busy hn, State.levelOf_busy, hv, State.recordRead_eq, if_true]
  rfl

theorem execPoll_again {s : State} (hn : s.cfg.dir = .nominal) (hv : s.pins.busy = true)
    (hmax : s.pollCnt + 1#32 ≠ s.cfg.maxBusyPolls) :
    exec (.poll .busy false) s = .next (s.poll true (s.upc + 1#6)) := by
  have hcount : (s.recordRead .busy).countPoll.pollCnt ≠ (s.recordRead .busy).countPoll.cfg.maxBusyPolls := hmax
  simp only [exec, execPoll, pollable_busy hn, State.levelOf_busy, hv, if_true, Bool.true_eq_false, if_false,
    if_neg hcount]
  rw [State.recordRead_eq, State.levelOf_busy, hv]
  rfl

theorem Takes.next (hr : x.Runnable) (hx : x.BetweenOps) (hop : romOp x.cfg x.upc = .ok i)
    (he : ∀ rest, exec i { x with agenda := rest } = .next { y with agenda := rest }) : Takes x [.sequencer] y :=
  .op hr hx.specRom hx.held hop he

theorem Takes.set (hr : x.Runnable) (hx : x.BetweenOps) (hop : romOp x.cfg x.upc = .ok (.set l v)) :
    Takes x [.sequencer] (x.drive l v) :=
  have ⟨hd, _, ho⟩ := set_operands (o := x.out) hx.nominal hop
  .next hr hx hop fun rest => execSet_eq (s := { x with agenda := rest }) hd ho

/-- A wait that begins with the Sequencer's turn, is owed its ticks and ends with the Sequencer's turn. -/
theorem Takes.wait (hr : x.Runnable) (hx : x.BetweenOps) (hop : romOp x.cfg x.upc = .ok (.wait k b)) :
    Takes x (waitTurns (unitsOf x.cfg k)) (x.pause k b) := by
  have hk := timeConstant_of_romOp hop
  have hbegin (rest : List Turn) := execWait_begin (s := { x with agenda := rest }) (b := b) hk hx.waiting
  unfold waitTurns
  split
  next hzero =>
    refine .next hr hx hop fun rest => (hbegin rest).trans ?_
    rw [State.beginWait_eq, if_pos hzero]
    rfl
  next hne =>
    let begun : State := { x with transcript := x.transcript ++ [.wait k (unitsOf x.cfg k)] }
    have first : Takes x [.sequencer] { begun with waiting := true, waitCnt := unitsOf x.cfg k } := by
      refine .next hr hx hop fun rest => (hbegin rest).trans ?_
      rw [State.beginWait_eq, if_neg hne]
    have last : Takes { begun with waiting := true, waitCnt := 0#32 } [.sequencer] (x.pause k b) := by
      refine .op (hr.of_same rfl rfl rfl) hx.specRom (by simp [State.held]) hop fun rest =>
        (execWait_end (s := { begun with waiting := true, waitCnt := 0#32, agenda := rest }) hk rfl rfl).trans ?_
      simp [begun, State.endWait, State.pause, State.afterWait, hx.waiting, hx.waitCnt]
    exact first.trans ((Takes.ticks (x := begun) (hr.of_same rfl rfl rfl)).trans last)

/-! ## Stretches and the poll loop -/

/-- The turns that a micro-op of a straight stretch needs. -/
def Act.turns (c : Config) : Act → List Turn
  | .drive _ _ => [.sequencer]
  | .pause k => waitTurns (unitsOf c k)

/-- The turns that a straight stretch needs. -/
def turnsOf (c : Config) (as : List Act) : List Turn := as.flatMap (Act.turns c)

theorem Takes.stretch {as : List Act} (hr : x.Runnable) (hx : x.BetweenOps) (has : StandFrom x.cfg x.upc as) :
    Takes x (turnsOf x.cfg as) (x.after as) := by
  induction as generalizing x with
  | nil =>
    rw [State.after_nil]
    exact .refl x
  | cons f as ih =>
    obtain ⟨hop, has⟩ := has
    rw [turnsOf, List.flatMap_cons]
    cases f with
    | drive l v =>
      rw [State.after_cons_drive]
      exact (Takes.set hr hx hop).trans (ih (hr.of_same rfl rfl rfl) (hx.of_same rfl rfl rfl rfl) has)
    | pause k =>
      rw [State.after_cons_pause]
      exact (Takes.wait hr hx hop).trans (ih (hr.of_same rfl rfl rfl) (hx.of_same rfl rfl rfl rfl) has)

/-- The poll loop while BUSY stays at 1 and the bound is not reached. -/
theorem Takes.busyAnswers {k : Nat} (hr : x.Runnable) (hx : x.BetweenOps) (hu : x.upc = 0x11#6)
    (hv : x.pins.busy = true) (hroom : x.pollCnt.toNat + k < x.cfg.maxBusyPolls.toNat) :
    Takes x (busyTurns x.cfg k) (x.busyAnswers k) := by
  induction k generalizing x with
  | zero =>
    have hnone : x.busyAnswers 0 = x := by simp [State.busyAnswers, busyEvents, ← hu]
    rw [hnone]
    exact .refl x
  | succ k ih =>
    have hcount : (x.pollCnt + 1#32).toNat = x.pollCnt.toNat + 1 := by bv_omega
    have hmax : x.pollCnt + 1#32 ≠ x.cfg.maxBusyPolls := fun heq => by rw [heq] at hcount; omega
    have hpoll : Takes x [.sequencer] (x.poll true 0x12#6) :=
      .next hr hx (romOp_of_romOps (by rw [hu]; rfl)) fun rest =>
        (execPoll_again (s := { x with agenda := rest }) hx.nominal hv hmax).trans (by rw [hu]; rfl)
    have hwait : Takes (x.poll true 0x12#6) (waitTurns x.cfg.tBusyPoll) ((x.poll true 0x12#6).pause 2 true) :=
      .wait (x := x.poll true 0x12#6) (hr.of_same rfl rfl rfl) (hx.of_same rfl rfl rfl rfl) (romOp_of_romOps rfl)
    have hroom' : (x.pollCnt + 1#32).toNat + k < x.cfg.maxBusyPolls.toNat := by omega
    have hmore := ih (x := (x.poll true 0x12#6).pause 2 true) (hr.of_same rfl rfl rfl) (hx.of_same rfl rfl rfl rfl)
      (by simp [State.pause, State.afterWait, State.poll]) hv hroom'
    rw [State.busyAnswers_succ]
    exact hpoll.trans (hwait.trans hmore)

end Sys2Proof.Machine
end

section
/-! PROOFS. The two commands on the schedules of exactly the needed turns (`40_host_commands.md` R111 to R131, R135). -/

namespace Sys2Proof.Machine

variable {s x y : State} {k : CmdCode} {i : Instr} {lo hi : Byte}

/-! ## From the acceptance on -/

/-- At a quiescent address a state that meets the invariant is between two micro-ops. -/
theorem State.Inv.betweenOps_of_ready (h : s.Inv) (hn : s.cfg.dir = .nominal) (hready : s.cmdReady = true) :
    romOp s.cfg s.upc = .ok .wcmd ∧ s.BetweenOps := by
  have hop : romOp s.cfg s.upc = .ok .wcmd := by
    rcases State.cmdReady_eq_true.1 hready with hu | hu <;> rw [hu]
    · exact (romOp_quiescent s.cfg).1
    · exact (romOp_quiescent s.cfg).2
  exact ⟨hop, h.betweenOps hn hop (by simp)⟩

/-- The Sequencer's turn that consumes the presented command. -/
theorem Takes.command (hr : x.Runnable) (hx : x.BetweenOps) (hop : romOp x.cfg x.upc = .ok .wcmd)
    (hv : x.pins.cmdValid = true) (hk : x.pins.cmd = k) (hd : decodeCmd k = .ok i)
    (he : ∀ rest, exec i { x with agenda := rest } = .next { y with agenda := rest }) : Takes x [.sequencer] y :=
  .next hr hx hop fun rest => (execWcmd_of_presented (s := { x with agenda := rest }) hv hk hd).trans (he rest)

/-- `RET 1`, whatever the Report port showed before. -/
theorem Takes.ret (hl : x.cfg.Legal) (hp : x.pins.hwreset = false) (hx : x.BetweenOps)
    (hop : romOp x.cfg x.upc = .ok (.ret 1)) : Takes x [.sequencer] { x.goto 0x01#6 with report := none } :=
  .of_cleared (.next (x := { x with report := none }) ⟨hl, hp, rfl⟩ (hx.of_same rfl rfl rfl rfl) hop fun _ => rfl)

/-! ## The reset routine -/

/-- The turns of the reset routine: its stretch, the diagnostic read-back or NOP, RET. -/
theorem resetTurns_eq (c : Config) : resetTurns c = turnsOf c resetActs ++ [Turn.sequencer] ++ [Turn.sequencer] := by
  simp [resetTurns, turnsOf, resetActs, Act.turns, unitsOf, timeConstant, List.replicate]

theorem Takes.readBack (hr : x.Runnable) (hx : x.BetweenOps) (hu : x.upc = 0x0C#6) :
    Takes x [.sequencer] (x.readBack x.pins.dataLow x.pins.dataHigh) := by
  have hop : romOp x.cfg x.upc = .ok (bif x.cfg.diagReadback then .capture1 else .nop) :=
    romOp_of_romOps (by rw [hu]; rfl)
  refine .next hr hx hop fun rest => (execReadBack_eq (x := { x with agenda := rest }) hx.nominal).trans ?_
  unfold State.readBack
  split <;> rfl

/-- The reset routine on the schedule of its turns. -/
theorem Takes.resetRoutine (hr : x.Runnable) (hx : x.BetweenOps) (hu : x.upc = 0x02#6) :
    Takes x (resetTurns x.cfg) { x.resetDone x.pins.dataLow x.pins.dataHigh with report := none } := by
  have hx1 : (x.after resetActs).BetweenOps := hx.of_same rfl rfl rfl rfl
  have hu1 : (x.after resetActs).upc = 0x0C#6 := by simp [hu, resetActs]
  have hread := Takes.readBack (x := x.after resetActs) (hr.of_same rfl rfl rfl) hx1 hu1
  rw [resetTurns_eq]
  refine ((Takes.stretch hr hx (hu ▸ resetActs_stand x.cfg)).trans hread).trans (.ret ?_ ?_ (hx1.readBack _ _) ?_)
  · rw [State.readBack_cfg]
    exact hr.legal
  · rw [State.readBack_pins]
    exact hr.released
  · rw [State.readBack_upc, hu1]
    exact romOp_of_romOps rfl

/-- Settles O56: the Sequencer's turn accepts the command, then the routine runs on its turns. -/
theorem resetRoutineReachesTheBaseline : Obligations.ResetRoutineReachesTheBaseline := by
  intro s rest hinv hn hready hreset hvalid hcmd hagenda
  obtain ⟨hop, hx⟩ := hinv.betweenOps_of_ready hn hready
  have hu := State.cmdReady_eq_true.1 hready
  let begun : State := { s with report := none }
  let accepted : State := (begun.latchCommand 0b01#2).acceptReset
  have hr : begun.Runnable := ⟨hinv.legal, hreset, rfl⟩
  have haccept : Takes begun [.sequencer] accepted :=
    .command hr (hx.of_same rfl rfl rfl rfl) hop hvalid hcmd rfl fun rest =>
      cmdResetIsAccepted { begun with agenda := rest } hu
  have hroutine := Takes.resetRoutine (x := accepted) (hr.of_same rfl rfl rfl) (hx.of_same rfl rfl rfl rfl) rfl
  have hrun := (Takes.of_cleared (haccept.trans hroutine)).run hagenda
  rw [Nat.add_comm]
  refine hrun.trans ?_
  rw [State.resetDone_eq]
  simp [accepted, begun, State.latchCommand, State.acceptReset, State.emit]

/-! ## The acquisition routine -/

/-- The turns from the exit of the poll loop on: the read window, CAPTURE 0 in it, SAMPLE, RET. -/
def windowTurns (c : Config) : List Turn :=
  turnsOf c (openActs c) ++ [Turn.sequencer] ++ turnsOf c closeActs ++ [Turn.sequencer] ++ [Turn.sequencer]

/-- The turns of a successful acquisition, made of those of its parts. -/
theorem acquisitionTurns_eq (c : Config) (k : Nat) (lo hi : Byte) :
    acquisitionTurns c k lo hi =
      ([Turn.device true 0 0] ++ (turnsOf c (startActs c) ++ busyTurns c k)) ++
        ([Turn.device false lo hi] ++ ([Turn.sequencer] ++ windowTurns c)) := by
  simp [acquisitionTurns, windowTurns, turnsOf, startActs, openActs, closeActs, Act.turns, unitsOf, timeConstant]

/-- From the exit of the poll loop on. -/
theorem Takes.readWindow (hr : x.Runnable) (hx : x.BetweenOps) (hu : x.upc = 0x13#6) :
    Takes x (windowTurns x.cfg) { x.readOut x.pins.dataLow x.pins.dataHigh with report := none } := by
  have hr1 : (x.after (openActs x.cfg)).Runnable := hr.of_same rfl rfl rfl
  have hx1 : (x.after (openActs x.cfg)).BetweenOps := hx.of_same rfl rfl rfl rfl
  have hu1 : (x.after (openActs x.cfg)).upc = 0x19#6 := by simp [hu, openActs]
  let captured : State := (x.after (openActs x.cfg)).captureSample x.pins.dataLow x.pins.dataHigh
  have hcapture : Takes (x.after (openActs x.cfg)) [.sequencer] captured :=
    .next hr1 hx1 (romOp_of_romOps (by rw [hu1]; rfl)) fun rest =>
      execCapture0_eq (x := { x.after (openActs x.cfg) with agenda := rest }) hx.nominal
  have hr2 : captured.Runnable := hr1.of_same rfl rfl rfl
  have hx2 : captured.BetweenOps := hx1.of_same rfl rfl rfl rfl
  have hu2 : captured.upc = 0x1A#6 := by
    rw [State.captureSample_upc, hu1]
    rfl
  have hr3 : (captured.after closeActs).Runnable := hr2.of_same rfl rfl rfl
  have hx3 : (captured.after closeActs).BetweenOps := hx2.of_same rfl rfl rfl rfl
  have hu3 : (captured.after closeActs).upc = 0x1D#6 := by
    rw [State.after_upc, hu2]
    rfl
  have hsample : Takes (captured.after closeActs) [.sequencer] (captured.after closeActs).takeSample :=
    .next hr3 hx3 (romOp_of_romOps (by rw [hu3]; rfl)) fun _ => rfl
  have hret : Takes (captured.after closeActs).takeSample [.sequencer] { x.readOut _ _ with report := none } :=
    .ret hr3.legal hr3.released (hx3.of_same rfl rfl rfl rfl)
      (romOp_of_romOps (by rw [State.takeSample_upc, hu3]; rfl))
  have hopen := Takes.stretch hr hx (hu ▸ openActs_stand x.cfg)
  have hclose := Takes.stretch hr2 hx2 (hu2 ▸ closeActs_stand x.cfg)
  exact (((hopen.trans hcapture).trans hclose).trans hsample).trans hret

/-- The Device shows busy, the conversion is started and polled. -/
theorem Takes.polled {n : Nat} (hr : x.Runnable) (hx : x.BetweenOps) (hu : x.upc = 0x0E#6) (hpoll : x.pollCnt = 0#32)
    (hn : n + 1 ≤ x.cfg.maxBusyPolls.toNat) :
    Takes x ([Turn.device true 0 0] ++ (turnsOf x.cfg (startActs x.cfg) ++ busyTurns x.cfg n))
      ((x.withDevice true 0 0).polled n) := by
  have hr1 : (x.withDevice true 0 0).Runnable := hr.of_same rfl rfl rfl
  have hx1 : (x.withDevice true 0 0).BetweenOps := hx.of_same rfl rfl rfl rfl
  have hstart : Takes (x.withDevice true 0 0) (turnsOf x.cfg (startActs x.cfg))
      ((x.withDevice true 0 0).after (startActs x.cfg)) :=
    .stretch hr1 hx1 (hu ▸ startActs_stand x.cfg)
  have hu2 : ((x.withDevice true 0 0).after (startActs x.cfg)).upc = 0x11#6 := by
    rw [State.after_upc, show (x.withDevice true 0 0).upc = 0x0E#6 from hu]
    rfl
  have hroom : x.pollCnt.toNat + n < x.cfg.maxBusyPolls.toNat := by
    rw [hpoll, BitVec.toNat_zero]
    omega
  have hloop := Takes.busyAnswers (x := (x.withDevice true 0 0).after (startActs x.cfg)) (hr1.of_same rfl rfl rfl)
    (hx1.of_same rfl rfl rfl rfl) hu2 rfl hroom
  exact (Takes.device hr true 0 0).trans (hstart.trans hloop)

/-- The Device shows done with `lo` and `hi` on the buses, the loop is left and the bytes are captured. -/
theorem Takes.readOut (hr : x.Runnable) (hx : x.BetweenOps) (hu : x.upc = 0x11#6) :
    Takes x ([Turn.device false lo hi] ++ ([Turn.sequencer] ++ windowTurns x.cfg))
      { ((x.withDevice false lo hi).poll false 0x13#6).readOut lo hi with report := none } := by
  have hr1 : (x.withDevice false lo hi).Runnable := hr.of_same rfl rfl rfl
  have hx1 : (x.withDevice false lo hi).BetweenOps := hx.of_same rfl rfl rfl rfl
  have hexit : Takes (x.withDevice false lo hi) [.sequencer] ((x.withDevice false lo hi).poll false 0x13#6) :=
    .next hr1 hx1 (romOp_of_romOps (by rw [show (x.withDevice false lo hi).upc = 0x11#6 from hu]; rfl)) fun rest =>
      (execPoll_done (s := { x.withDevice false lo hi with agenda := rest }) hx.nominal rfl).trans (by
        rw [show ({ x.withDevice false lo hi with agenda := rest } : State).upc = 0x11#6 from hu]; rfl)
  have hwindow := Takes.readWindow (x := (x.withDevice false lo hi).poll false 0x13#6) (hr1.of_same rfl rfl rfl)
    (hx1.of_same rfl rfl rfl rfl) rfl
  exact (Takes.device hr false lo hi).trans (hexit.trans hwindow)

/-- The acquisition routine on the schedule of its turns. -/
theorem Takes.acquisitionRoutine {n : Nat} (hr : x.Runnable) (hx : x.BetweenOps) (hu : x.upc = 0x0E#6)
    (hpoll : x.pollCnt = 0#32) (hn : n + 1 ≤ x.cfg.maxBusyPolls.toNat) :
    Takes x (acquisitionTurns x.cfg n lo hi) { (x.withDevice false lo hi).acquired n lo hi with report := none } := by
  have hr1 : ((x.withDevice true 0 0).polled n).Runnable := hr.of_same rfl rfl rfl
  have hx1 : ((x.withDevice true 0 0).polled n).BetweenOps := hx.of_same rfl rfl rfl rfl
  rw [acquisitionTurns_eq]
  exact (Takes.polled hr hx hu hpoll hn).trans (Takes.readOut hr1 hx1 rfl)

/-- Settles O57: the Sequencer's turn accepts the command, then the routine runs on its turns. -/
theorem acquisitionCapturesTheSample : Obligations.AcquisitionCapturesTheSample := by
  intro s n lo hi rest hinv hn hu hreset hvalid hcmd hpolls hagenda
  obtain ⟨hop, hx⟩ := hinv.betweenOps_of_ready hn (State.cmdReady_eq_true.2 (.inr hu))
  let begun : State := { s with report := none }
  let accepted : State := (begun.latchCommand 0b10#2).acceptTrigger
  have hr : begun.Runnable := ⟨hinv.legal, hreset, rfl⟩
  have haccept : Takes begun [.sequencer] accepted :=
    .command hr (hx.of_same rfl rfl rfl rfl) hop hvalid hcmd rfl fun rest =>
      cmdTriggerIsAcceptedAtTheBaseline { begun with agenda := rest } hu
  have hroutine := Takes.acquisitionRoutine (x := accepted) (lo := lo) (hi := hi) (hr.of_same rfl rfl rfl)
    (hx.of_same rfl rfl rfl rfl) rfl rfl hpolls
  have hrun := (Takes.of_cleared (haccept.trans hroutine)).run hagenda
  rw [Nat.add_comm]
  refine hrun.trans ?_
  rw [State.acquired_eq]
  simp [accepted, begun, State.latchCommand, State.acceptTrigger, State.emit, State.withDevice]

end Sys2Proof.Machine
end

section
/-! PROOFS. An acquisition that times out, on the schedule of exactly the needed turns (`41_line_ops.md` R147(b),
`40_host_commands.md` R132, `60_exceptions.md` R198, R199). -/

namespace Sys2Proof.Machine

variable {s x : State} {n : Nat}

/-- The turns of an acquisition that times out, made of those of its parts. -/
theorem timeoutTurns_eq (c : Config) (k : Nat) :
    timeoutTurns c k =
      ([Turn.device true 0 0] ++ (turnsOf c (startActs c) ++ busyTurns c k)) ++
        ([Turn.sequencer] ++ (turnsOf c abortActs ++ [Turn.sequencer])) := by
  simp [timeoutTurns, turnsOf, startActs, abortActs, Act.turns, unitsOf, timeConstant, List.replicate]

/-- A POLL that finds BUSY at 1 for the last time that the bound allows. -/
theorem execPoll_timesOut (hn : s.cfg.dir = .nominal) (hv : s.pins.busy = true)
    (hmax : s.pollCnt + 1#32 = s.cfg.maxBusyPolls) :
    exec (.poll .busy false) s = .next ((s.poll true s.upc).raise .timeout .busy) := by
  obtain ⟨t, ht⟩ := exec_answers (s := s) (i := .poll .busy false) rfl (by simp)
  rcases execPoll_cases ht with ⟨hd, -⟩ | ⟨-, ⟨hexit, -⟩ | ⟨-, -, rfl⟩ | ⟨-, hmore, -⟩⟩
  · simp [pollable_busy hn] at hd
  · simp [hv] at hexit
  · rw [ht, State.levelOf_busy, hv]
    rfl
  · exact absurd hmax hmore

/-- The Sequencer's turn that accepts `CMD_TRIGGER_AND_READ`. -/
theorem Takes.acceptTrigger (hr : x.Runnable) (hx : x.BetweenOps) (hu : x.upc = 0x01#6) (hv : x.pins.cmdValid = true)
    (hk : x.pins.cmd = 0b10#2) : Takes x [.sequencer] (x.latchCommand 0b10#2).acceptTrigger :=
  .command hr hx (hu ▸ (romOp_quiescent x.cfg).2) hv hk rfl fun rest =>
    cmdTriggerIsAcceptedAtTheBaseline { x with agenda := rest } hu

/-- The abort routine on the schedule of its turns. -/
theorem Takes.abortRoutine (hr : x.Runnable) (hx : x.BetweenOps) (hu : x.upc = 0x1F#6) :
    Takes x (turnsOf x.cfg abortActs ++ [Turn.sequencer]) (x.after abortActs).endAbort :=
  (Takes.stretch hr hx (hu ▸ abortActs_stand x.cfg)).trans
    (.next (hr.of_same rfl rfl rfl) (hx.of_same rfl rfl rfl rfl) (romOp_of_romOps (by rw [State.after_upc, hu]; rfl))
      fun _ => rfl)

/-- The acquisition routine on the schedule of a Device that stays busy. -/
theorem Takes.timeoutRoutine (hr : x.Runnable) (hx : x.BetweenOps) (hu : x.upc = 0x0E#6) (hpoll : x.pollCnt = 0#32)
    (hn : n + 1 = x.cfg.maxBusyPolls.toNat) :
    Takes x (timeoutTurns x.cfg n) ((x.withDevice true 0 0).timedOut n) := by
  let last : State := (x.withDevice true 0 0).polled n
  let raised : State := (last.poll true 0x11#6).raise .timeout .busy
  have hr1 : last.Runnable := hr.of_same rfl rfl rfl
  have hx1 : last.BetweenOps := hx.of_same rfl rfl rfl rfl
  have hmax : last.pollCnt + 1#32 = x.cfg.maxBusyPolls := by
    refine BitVec.eq_of_toNat_eq (Eq.trans ?_ hn)
    rw [← toNat_pollCount hpoll hn.le, BitVec.ofNat_add, ← BitVec.add_assoc]
    rfl
  have hraise : Takes last [.sequencer] raised :=
    .next hr1 hx1 (romOp_of_romOps rfl) fun rest =>
      execPoll_timesOut (s := { last with agenda := rest }) hx1.nominal rfl hmax
  have habort := Takes.abortRoutine (x := raised) (hr1.of_same rfl rfl rfl) ⟨hx1.specRom, hx1.nominal, rfl, rfl⟩ rfl
  rw [timeoutTurns_eq]
  exact (Takes.polled hr hx hu hpoll hn.le).trans (hraise.trans habort)

/-- Settles O58: the Sequencer's turn accepts the command, then the routine runs on its turns into the timeout and
through the abort routine. -/
theorem acquisitionTimesOutWithinTheBound : Obligations.AcquisitionTimesOutWithinTheBound := by
  intro s n rest hinv hn hu hreset hvalid hcmd hpolls hagenda
  obtain ⟨-, hx⟩ := hinv.betweenOps_of_ready hn (State.cmdReady_eq_true.2 (.inr hu))
  have hidle : s.aborting = false := by
    rw [← Bool.not_eq_true, hinv.abortingIff]
    simp [State.within, hu]
  have hcount : BitVec.ofNat 32 (n + 1) = s.cfg.maxBusyPolls := by rw [hpolls, BitVec.ofNat_toNat, BitVec.setWidth_eq]
  let begun : State := { s with report := none }
  let accepted : State := (begun.latchCommand 0b10#2).acceptTrigger
  have hr : begun.Runnable := ⟨hinv.legal, hreset, rfl⟩
  have haccept : Takes begun [.sequencer] accepted :=
    .acceptTrigger hr (hx.of_same rfl rfl rfl rfl) hu hvalid hcmd
  have hroutine := Takes.timeoutRoutine (x := accepted) (hr.of_same rfl rfl rfl) (hx.of_same rfl rfl rfl rfl) rfl rfl
    hpolls
  have hrun := (Takes.of_cleared (haccept.trans hroutine)).run hagenda
  rw [Nat.add_comm]
  refine hrun.trans ?_
  rw [State.timedOut_eq]
  simp [accepted, begun, State.latchCommand, State.acceptTrigger, State.emit, State.withDevice, timeoutEvents, hcount,
    hidle, hx.waiting, hx.waitCnt]

end Sys2Proof.Machine
end

section
/-! PROOFS. The line micro-operations (`41_line_ops.md` R141 to R143, R146, R150, R151). -/

namespace Sys2Proof.Machine

variable {s : State} {i : Instr} {l : Line} {v : Bool} {d : Direction} {c : Config} {a : StepAddr}

/-! ## SET -/

/-- A line that is not configured `Out` is configured `In`. -/
theorem Direction.eq_input_of_ne (h : d ≠ .output) : d = .input := by
  cases d with
  | output => exact absurd rfl h
  | input => rfl

/-- `SET` of a line that is not configured `Out`: skipped in the abort routine, else an error. -/
theorem execSet_of_not_output (hd : dirOf s.cfg l ≠ .output) :
    exec (.set l v) s = .next (if s.aborting then s.advance else s.raise .misconfiguredLine l) := by
  simp only [exec, execSet, Direction.eq_input_of_ne hd]

/-- `SET` of a line that is configured `Out` and has an output register drives it and no other. -/
theorem execSet_drivesOnlyItsLine (hd : dirOf s.cfg l = .output) (hid : l.id.toNat ≤ 4) :
    ∃ o : Outputs, o.level l = some v ∧ (∀ m, m ≠ l → o.level m = s.out.level m) ∧
      exec (.set l v) s = .next { s with
        out := o, transcript := s.transcript ++ [.set l v], upc := s.upc + 1 } := by
  obtain ⟨o, ho⟩ := Outputs.write_of_id_le (o := s.out) (v := v) hid
  obtain ⟨hlevel, hothers⟩ := Outputs.write_spec ho
  refine ⟨o, hlevel, hothers, ?_⟩
  rw [execSet_eq hd ho, State.drive, ho]
  rfl

/-- Settles O21: by the line's direction, outside the abort routine. -/
theorem setDrivesItsLineOrRaises : Obligations.SetDrivesItsLineOrRaises := by
  refine fun l v s hidle => ⟨fun hd => ?_, execSet_drivesOnlyItsLine⟩
  rw [execSet_of_not_output hd, if_neg (by simp [hidle]), State.raise_eq]
  rfl

/-- Settles O22: by the line's direction, in the abort routine. -/
theorem setWhileAbortingSkipsOrDrives : Obligations.SetWhileAbortingSkipsOrDrives := by
  refine fun l v s haborting => ⟨fun hd => ?_, execSet_drivesOnlyItsLine⟩
  rw [execSet_of_not_output hd, if_pos haborting]
  rfl

/-- Settles O23: there is no output register to drive. -/
theorem setWithoutOutputRegisterIsRefused : Obligations.SetWithoutOutputRegisterIsRefused := by
  intro l v s hid hd
  have hnone : s.driveLine l v = none := by rw [State.driveLine, Outputs.write_of_id_ge hid, Option.map_none]
  simp only [exec, execSet, hd, hnone]

/-! ## POLL -/

/-- Settles O24: a POLL always answers, and the branch it takes is fixed by the direction, the level read and the
count. -/
theorem pollReadsCountsAndBranches : Obligations.PollReadsCountsAndBranches := by
  intro l v s
  obtain ⟨t, ht⟩ := exec_answers (s := s) (i := .poll l v) rfl (by simp)
  refine ⟨fun hd => ?_, fun hd hlow hhigh => ⟨s.levelOf l, s.freeNo + freeLevelsUsed l, ?_, ?_⟩⟩
  · have hraises := pollable_eq_false.2 hd
    rcases execPoll_cases ht with ⟨-, rfl⟩ | ⟨hreads, -⟩
    · exact ht
    · simp [hraises] at hreads
  · rintro rfl
    exact ⟨rfl, rfl⟩
  · have hreads := pollable_eq_true.2 ⟨hd, hlow, hhigh⟩
    rcases execPoll_cases ht with ⟨hraises, -⟩ | ⟨-, ⟨hv, rfl⟩ | ⟨hv, hmax, rfl⟩ | ⟨hv, hmax, rfl⟩⟩
    · simp [hreads] at hraises
    · exact ⟨fun _ => ht, fun hne => absurd hv hne, fun hne => absurd hv hne⟩
    · exact ⟨fun heq => absurd heq hv, fun _ _ => ht, fun _ hne => absurd hmax hne⟩
    · exact ⟨fun heq => absurd heq hv, fun _ heq => absurd heq hmax, fun _ _ => ht⟩

/-! ## CAPTURE -/

/-- A capture of either kind raises for the first bus that is not configured `In`. -/
theorem execCapture_raises (hi : i = .capture0 ∨ i = .capture1) (hm : misconfiguredBus s.cfg = some l) :
    exec i s = .next (s.raise .misconfiguredLine l) := by
  rcases hi with rfl | rfl
  · simp only [exec, execCapture0, hm]
  · simp only [exec, execCapture1, hm]

/-- Only 0x19 holds `CAPTURE 0`. -/
theorem romOp_eq_capture0 : romOp c a = .ok .capture0 ↔ a = 0x19#6 := by
  refine ⟨fun h => BitVec.eq_of_toNat_eq ?_, ?_⟩
  · simpa [standsAt] using romOp_standsAt h
  · rintro rfl
    exact romOp_of_romOps rfl

/-- Only 0x0C holds `CAPTURE 1`, and only with the diagnostic read-back. -/
theorem romOp_eq_capture1 : romOp c a = .ok .capture1 ↔ a = 0x0C#6 ∧ c.diagReadback = true := by
  have hop : romOp c 0x0C#6 = .ok (bif c.diagReadback then .capture1 else .nop) := romOp_of_romOps rfl
  have hhere : romOp c 0x0C#6 = .ok .capture1 ↔ c.diagReadback = true := by
    rw [hop]
    cases c.diagReadback <;> simp
  constructor
  · intro h
    obtain rfl : a = 0x0C#6 := BitVec.eq_of_toNat_eq (by simpa [standsAt] using romOp_standsAt h)
    exact ⟨rfl, hhere.1 h⟩
  · rintro ⟨rfl, hdiag⟩
    exact hhere.2 hdiag

/-- Settles O25: the word and its place, then by the first misconfigured bus. -/
theorem captureSampleTakesBothBuses : Obligations.CaptureSampleTakesBothBuses := by
  refine ⟨rfl, fun _ _ => romOp_eq_capture0, fun s => ⟨fun hlow => ?_, fun hlow hhigh => ?_, fun hlow hhigh => ?_⟩⟩
  · exact execCapture_raises (.inl rfl) (misconfiguredBus_eq_some.2 (.inl ⟨hlow, rfl⟩))
  · exact execCapture_raises (.inl rfl) (misconfiguredBus_eq_some.2 (.inr ⟨hlow, hhigh, rfl⟩))
  · have hnone := misconfiguredBus_eq_none.2 ⟨hlow, hhigh⟩
    obtain ⟨t, ht⟩ := exec_answers (s := s) (i := .capture0) rfl (by simp)
    rcases execCapture0_cases ht with ⟨m, hm, -⟩ | ⟨-, rfl⟩
    · simp [hnone] at hm
    · exact ht

/-- Settles O26: the word and its place, then by the first misconfigured bus. -/
theorem captureDiagnosticReportsInitial : Obligations.CaptureDiagnosticReportsInitial := by
  refine ⟨rfl, fun _ _ => romOp_eq_capture1, fun s => ⟨fun hlow => ?_, fun hlow hhigh => ?_, fun hlow hhigh => ?_⟩⟩
  · exact execCapture_raises (.inr rfl) (misconfiguredBus_eq_some.2 (.inl ⟨hlow, rfl⟩))
  · exact execCapture_raises (.inr rfl) (misconfiguredBus_eq_some.2 (.inr ⟨hlow, hhigh, rfl⟩))
  · have hnone := misconfiguredBus_eq_none.2 ⟨hlow, hhigh⟩
    obtain ⟨t, ht⟩ := exec_answers (s := s) (i := .capture1) rfl (by simp)
    rcases execCapture1_cases ht with ⟨m, hm, -⟩ | ⟨-, rfl⟩
    · simp [hnone] at hm
    · exact ht

end Sys2Proof.Machine
end

section
/-! PROOFS. `WAIT` and the Timebase (`42_timing_ops.md` R161 to R164): what a tick changes, the steps of a wait, and the
turns taken while one is owed ticks. -/

namespace Sys2Proof.Machine

variable {s x : State} {ts rest : List Turn} {q : U32} {k : BitVec 3} {b : Bool}

/-! ## The tick -/

/-- A tick is a write of `wait_cnt` only, and counts while a wait is owed ticks. -/
theorem State.tick_writesWaitCnt (s : State) :
    s.tick =
      { s with waitCnt := if s.waiting = true ∧ 0 < s.waitCnt.toNat then s.waitCnt - 1 else s.waitCnt } := by
  have hheld : s.held = true ↔ s.waiting = true ∧ 0 < s.waitCnt.toNat := by
    rw [State.held_eq_true, Nat.pos_iff_ne_zero, Ne, Ne, BitVec.toNat_eq]
    rfl
  rw [State.tick_eq]
  by_cases hh : s.held = true
  · rw [if_pos hh, if_pos (hheld.1 hh)]
    rfl
  · rw [if_neg hh, if_neg (mt hheld.2 hh)]

/-- Settles O16: the step is the begun turn's tick. -/
theorem tickCountsDownAWait : Obligations.TickCountsDownAWait := by
  intro s hl hr ht
  have htick : s.beginTurn.outsideTurn .tick = s.beginTurn.tick := if_neg (by simpa using hr)
  rw [step_of_outsideTurn hl ht Turn.noConfusion, htick, State.tick_writesWaitCnt]
  simp only [State.beginTurn_waiting, State.beginTurn_waitCnt]

/-! ## The steps of WAIT -/

/-- The held step of a wait changes nothing. -/
theorem execWait_held (hk : timeConstant s.cfg k = some q) (hw : s.waiting = true) (hc : s.waitCnt ≠ 0#32) :
    exec (.wait k b) s = .next s := by
  simp [exec, execWait, hk, hw, hc]

/-- Settles O27: by `waiting`, then by the units to wait or still owed. -/
theorem waitBeginsHoldsAndEnds : Obligations.WaitBeginsHoldsAndEnds := by
  intro k b s n hn
  have hk : timeConstant s.cfg k = some n := (timeConstant_eq s.cfg k).trans hn
  refine ⟨fun hw hzero => ?_, fun hw hne => ?_, execWait_held hk, fun hw hc => ?_⟩
  · obtain rfl : n = 0#32 := hzero
    rw [execWait_begin hk hw, State.beginWait_eq, if_pos rfl]
    rfl
  · rw [execWait_begin hk hw, State.beginWait_eq, if_neg (c := n = 0#32) hne]
  · rw [execWait_end hk hw hc]
    rfl

/-! ## The turns of a wait -/

/-- A turn taken while a wait is owed ticks: a tick counts, every other turn changes input ports at most. -/
theorem step_of_held (hl : s.cfg.Legal) (hno : s.noHwReset) (hh : s.held = true) :
    (s.nextTurn = .tick ∧ step s = .next s.beginTurn.tick) ∨
    (s.nextTurn ≠ .tick ∧ ∃ p : Pins, step s = .next { s.beginTurn with pins := p }) := by
  obtain ⟨hr, hturn⟩ := hno
  by_cases hseq : s.nextTurn = .sequencer
  · refine .inr ⟨by simp [hseq], s.beginTurn.pins, ?_⟩
    rw [step_of_sequencer hl hseq hr, if_pos hh]
  · rw [step_of_outsideTurn hl rfl hseq]
    rcases s.beginTurn.outsideTurn_cases s.nextTurn with ⟨-, -, hreset | hreset⟩ | ⟨-, htick, h⟩ | ⟨p, h, htick⟩
    · simp [hr] at hreset
    · exact absurd hreset hturn
    · exact .inl ⟨htick, congrArg _ h⟩
    · exact .inr ⟨htick, p, congrArg _ h⟩

/-- Such a turn lowers the ticks owed by the ticks it brings, and leaves the state alike in all else. -/
theorem Alike.step_of_owed (h : Alike { x with waiting := true, waitCnt := q } s) (hl : s.cfg.Legal) (hno : s.noHwReset)
    (hq : q ≠ 0#32) :
    ∃ v q', step s = .next v ∧ Alike { x with waiting := true, waitCnt := q' } v ∧
      q'.toNat + ticksIn [s.nextTurn] = q.toNat := by
  have hx : State.held { x with waiting := true, waitCnt := q } = true := State.held_eq_true.2 ⟨rfl, hq⟩
  rcases step_of_held hl hno (h.held.trans hx) with ⟨htick, hstep⟩ | ⟨hother, p, hstep⟩
  · refine ⟨_, _, hstep, h.beginTurn.tick hx, ?_⟩
    rw [htick]
    change (q - 1#32).toNat + 1 = q.toNat
    bv_omega
  · refine ⟨_, q, hstep, h.beginTurn.withPins p, ?_⟩
    simp [ticksIn, hother]

/-- By induction on the turns: as long as fewer ticks come than are owed, the count alone moves, by the ticks that came. -/
theorem Alike.run_of_owed (h : Alike { x with waiting := true, waitCnt := q } s) (hl : s.cfg.Legal)
    (hr : s.pins.hwreset = false) (ha : s.agenda = ts ++ rest) (hno : .hwreset true ∉ ts) (hq : ticksIn ts < q.toNat) :
    ∃ t q', Host.Core.run core ts.length s = .next t ∧ Alike { x with waiting := true, waitCnt := q' } t ∧
      q'.toNat = q.toNat - ticksIn ts ∧ t.agenda = rest := by
  induction ts generalizing s q with
  | nil => exact ⟨s, q, rfl, h, rfl, ha⟩
  | cons a ts ih =>
    have hturn : s.nextTurn = a := by simp [State.nextTurn, ha]
    have hcount : ticksIn (a :: ts) = ticksIn [a] + ticksIn ts := List.count_append (l₁ := [a])
    obtain ⟨hfirst, hlater⟩ : .hwreset true ≠ a ∧ .hwreset true ∉ ts := by simpa using hno
    have hnoStep : s.noHwReset := ⟨hr, hturn ▸ hfirst.symm⟩
    have hne : q ≠ 0#32 := by rintro rfl; simp at hq
    obtain ⟨v, q₁, hv, halike, howed⟩ := h.step_of_owed hl hnoStep hne
    obtain ⟨hagenda, hreleased⟩ := hnoStep.step_agenda hv
    rw [hturn] at howed
    obtain ⟨t, q', hrun, hend, hcnt, hrest⟩ :=
      ih halike ((step_sameMemory hv).cfg ▸ hl) hreleased (by rw [hagenda, ha]; rfl) hlater (by omega)
    exact ⟨t, q', (run_succ hv).trans hrun, hend, by omega, hrest⟩

/-- Settles O29: the run of a wait that is owed more ticks than come, from the wait itself. -/
theorem waitDoesNotReturnEarly : Obligations.WaitDoesNotReturnEarly := by
  intro s ts rest hl hr hw ha hno hticks
  have hs : Alike { s with waiting := true, waitCnt := s.waitCnt } s := by
    rw [← hw]
    exact .refl s
  obtain ⟨t, q', hrun, halike, hcnt, hagenda⟩ := hs.run_of_owed hl hr ha hno hticks
  refine ⟨t, hrun, ?_⟩
  obtain ⟨_, _, _, _, rfl⟩ := halike
  exact ⟨rfl, hcnt, rfl, rfl, rfl, hagenda⟩

end Sys2Proof.Machine
end

section
/-! PROOFS. The sample arithmetic (`43_control_ops.md` R173, R174) and the value of an ERROR report (R176). -/

namespace Sys2Proof.Machine

variable {lo hi : Byte}

/-- A field of at most 8 bits in the high byte, above one in the low byte. -/
theorem toNat_high_or_low {m n : Nat} (hm : m ≤ 8) (hn : n ≤ 8) (x : BitVec m) (y : BitVec n) :
    (x.setWidth 16 <<< 8 ||| y.setWidth 16).toNat = x.toNat * 256 + y.toNat := by
  have hx : x.toNat < 2 ^ 8 := x.isLt.trans_le (Nat.pow_le_pow_right two_pos hm)
  have hy : y.toNat < 2 ^ 8 := y.isLt.trans_le (Nat.pow_le_pow_right two_pos hn)
  have hshift : (x.setWidth 16 <<< 8).toNat = 2 ^ 8 * x.toNat := by
    rw [BitVec.toNat_shiftLeft, BitVec.toNat_setWidth_of_le (by omega), Nat.shiftLeft_eq]
    omega
  rw [BitVec.toNat_or, hshift, BitVec.toNat_setWidth_of_le (by omega), ← Nat.two_pow_add_eq_or_of_lt hy,
    Nat.mul_comm]

theorem combine_canonical_toNat (lo hi : Byte) : (combine false lo hi).toNat = hi.toNat * 256 + lo.toNat :=
  toNat_high_or_low le_rfl le_rfl hi lo

/-- A product of two bytes needs no more than 16 bits. -/
theorem byte_mul_le (lo hi : Byte) : lo.toNat * hi.toNat ≤ 65025 :=
  Nat.mul_le_mul (Nat.le_of_lt_succ lo.isLt) (Nat.le_of_lt_succ hi.isLt)

theorem combine_legacy_toNat (lo hi : Byte) : (combine true lo hi).toNat = lo.toNat * hi.toNat := by
  have hle := byte_mul_le lo hi
  rw [combine, if_pos rfl, BitVec.toNat_mul, BitVec.toNat_setWidth_of_le (by decide),
    BitVec.toNat_setWidth_of_le (by decide), Nat.mod_eq_of_lt (by omega)]

/-- Settles O32: both modes as numbers. -/
theorem combineIsConcatenationOrProduct : Obligations.CombineIsConcatenationOrProduct := fun lo hi =>
  ⟨combine_canonical_toNat lo hi, combine_legacy_toNat lo hi, combine_legacy_toNat lo hi ▸ byte_mul_le lo hi⟩

theorem decompose_fst_toNat (v : Half) : (decompose v).1.toNat = v.toNat % 256 := by
  simp [decompose]

theorem decompose_snd_toNat (v : Half) : (decompose v).2.toNat = v.toNat / 256 := by
  simp only [decompose, BitVec.extractLsb'_toNat, Nat.shiftRight_eq_div_pow]
  omega

theorem decompose_combine_canonical (lo hi : Byte) : decompose (combine false lo hi) = (lo, hi) := by
  have hv := combine_canonical_toNat lo hi
  refine Prod.ext (BitVec.eq_of_toNat_eq ?_) (BitVec.eq_of_toNat_eq ?_)
  · change _ = lo.toNat
    rw [decompose_fst_toNat]
    omega
  · change _ = hi.toNat
    rw [decompose_snd_toNat]
    omega

/-- The two bytes determine the half-word. -/
theorem decompose_injective : Function.Injective decompose := by
  intro v w h
  have hlow := decompose_fst_toNat v
  have hhigh := decompose_snd_toNat v
  rw [h, decompose_fst_toNat] at hlow
  rw [h, decompose_snd_toNat] at hhigh
  exact BitVec.eq_of_toNat_eq (by omega)

/-- The two modes agree on the pair of zeros only: elsewhere the product is below the concatenation. -/
theorem combine_legacy_eq_canonical : combine true lo hi = combine false lo hi ↔ lo = 0 ∧ hi = 0 := by
  constructor
  · intro h
    have heq : lo.toNat * hi.toNat = hi.toNat * 256 + lo.toNat := by
      rw [← combine_legacy_toNat, h, combine_canonical_toNat]
    have hle : lo.toNat * hi.toNat ≤ 255 * hi.toNat := Nat.mul_le_mul_right _ (Nat.le_of_lt_succ lo.isLt)
    have hzero : lo.toNat = 0 ∧ hi.toNat = 0 := by omega
    exact ⟨BitVec.eq_of_toNat_eq hzero.1, BitVec.eq_of_toNat_eq hzero.2⟩
  · rintro ⟨rfl, rfl⟩
    rfl

/-- Settles O33: the canonical mode is inverted by `decompose`, which is injective, so the legacy mode round-trips where
it agrees with the canonical one. -/
theorem decomposeOfCombineRoundTrip : Obligations.DecomposeOfCombineRoundTrip := by
  refine ⟨fun v => ⟨decompose_fst_toNat v, decompose_snd_toNat v⟩, fun lo hi =>
    ⟨decompose_combine_canonical lo hi, ?_⟩⟩
  rw [← decompose_combine_canonical lo hi, decompose_injective.eq_iff, combine_legacy_eq_canonical]

/-- The ERROR report's value: the line id above the error's code. -/
theorem errorValue_toNat (e : ErrKind) (l : LineId) : (errorValue e l).toNat = l.toNat * 256 + e.code.toNat :=
  toNat_high_or_low (by decide) (by decide) l e.code

end Sys2Proof.Machine
end

section
/-! PROOFS. The control micro-operations (`43_control_ops.md` R170, R172, R177 to R179, R181, R182): their words, where
the spec's ROM holds them, and what they do. -/

namespace Sys2Proof.Machine

variable {s : State} {c : Config} {a : StepAddr}

/-! ## Where they stand -/

/-- Only 0x0C holds `NOP`, and only without the diagnostic read-back. -/
theorem romOp_eq_nop : romOp c a = .ok .nop ↔ a = 0x0C#6 ∧ c.diagReadback = false := by
  have hop : romOp c 0x0C#6 = .ok (bif c.diagReadback then .capture1 else .nop) := romOp_of_romOps rfl
  have hhere : romOp c 0x0C#6 = .ok .nop ↔ c.diagReadback = false := by
    rw [hop]
    cases c.diagReadback <;> simp
  constructor
  · intro h
    obtain rfl : a = 0x0C#6 := BitVec.eq_of_toNat_eq (by simpa [standsAt] using romOp_standsAt h)
    exact ⟨rfl, hhere.1 h⟩
  · rintro ⟨rfl, hdiag⟩
    exact hhere.2 hdiag

/-- Only 0x1D holds `SAMPLE`. -/
theorem romOp_eq_sample : romOp c a = .ok .sample ↔ a = 0x1D#6 := by
  refine ⟨fun h => BitVec.eq_of_toNat_eq ?_, ?_⟩
  · simpa [standsAt] using romOp_standsAt h
  · rintro rfl
    exact romOp_of_romOps rfl

/-- `RET 0` is the filler. -/
theorem romOp_eq_ret0 : romOp c a = .ok (.ret 0) ↔ 0x25 ≤ a.toNat := by
  refine ⟨fun h => by simpa [standsAt] using romOp_standsAt h, fun h => ?_⟩
  rw [romOp, romWord_filler c h]
  rfl

/-- `RET 1` ends the reset and the acquisition routine. -/
theorem romOp_eq_ret1 : romOp c a = .ok (.ret 1) ↔ a = 0x0D#6 ∨ a = 0x1E#6 := by
  constructor
  · intro h
    have hat : a.toNat = 0x0D ∨ a.toNat = 0x1E := by simpa [standsAt] using romOp_standsAt h
    exact hat.imp BitVec.eq_of_toNat_eq BitVec.eq_of_toNat_eq
  · rintro (rfl | rfl) <;> exact romOp_of_romOps rfl

/-- `RET 2` ends the abort routine. -/
theorem romOp_eq_ret2 : romOp c a = .ok .ret2 ↔ a = 0x24#6 := by
  refine ⟨fun h => BitVec.eq_of_toNat_eq ?_, ?_⟩
  · simpa [standsAt] using romOp_standsAt h
  · rintro rfl
    exact romOp_of_romOps rfl

/-! ## What they do -/

/-- Settles O30: the word, its place, and the effect by definition. -/
theorem nopOnlyAdvances : Obligations.NopOnlyAdvances :=
  ⟨rfl, fun _ _ => romOp_eq_nop, fun _ => rfl⟩

/-- Settles O31: the word, its place, and the state after `SAMPLE`. -/
theorem sampleCombinesAndReports : Obligations.SampleCombinesAndReports :=
  ⟨rfl, fun _ _ => romOp_eq_sample, execSample_eq⟩

/-- Settles O39: the words, their places, and the effect by definition. -/
theorem retGoesToItsQuiescentAddress : Obligations.RetGoesToItsQuiescentAddress :=
  ⟨rfl, rfl, fun _ _ => ⟨romOp_eq_ret0, romOp_eq_ret1⟩, fun _ => ⟨rfl, rfl⟩⟩

/-- Settles O40: the word, its place, and the return with the value of the ERROR report. -/
theorem retTwoEndsTheAbort : Obligations.RetTwoEndsTheAbort :=
  ⟨rfl, fun _ _ => romOp_eq_ret2, fun s =>
    ⟨errorValue s.err s.errLine, errorValue_toNat s.err s.errLine, congrArg Host.Outcome.next s.endAbort_eq⟩⟩

/-- `WCMD` with a command on the port presents it. -/
theorem execWcmd_of_cmdValid (hv : s.pins.cmdValid = true) :
    exec .wcmd s = .next (s.presentCommand s.pins.cmd) := by
  rw [exec, execWcmd, if_pos hv]

/-- Settles O34: no command rests; the two commands of the table are those of the command rows; every other is refused. -/
theorem wcmdRestsAcceptsOrRefuses : Obligations.WcmdRestsAcceptsOrRefuses := by
  refine fun s => ⟨fun hv => ?_, fun hv hu => ⟨fun hk => ?_, fun hk hu1 => ?_, fun hk hnot => ?_⟩⟩
  · rw [exec, execWcmd, if_neg (by simp [hv])]
  · rw [execWcmd_of_cmdValid hv, hk]
    exact cmdResetIsAccepted s hu
  · rw [execWcmd_of_cmdValid hv, hk]
    exact cmdTriggerIsAcceptedAtTheBaseline s hu1
  · have hready := State.cmdReady_eq_true.2 hu
    rw [execWcmd_of_cmdValid hv]
    refine congrArg Host.Outcome.next ?_
    rcases s.presentCommand_cases s.pins.cmd with ⟨hr, -⟩ | ⟨-, hreset, -⟩ | ⟨hu1, htrigger, -⟩ | ⟨-, -, -, h⟩
    · simp [hready] at hr
    · exact absurd hreset hk
    · exact absurd ⟨htrigger, hu1⟩ hnot
    · exact h

end Sys2Proof.Machine
end

section
/-! PROOFS. How an instruction moves `upc` (`43_control_ops.md` R183). -/

namespace Sys2Proof.Machine

variable {s t : State} {i : Instr}

/-- A presented command leaves `upc` or dispatches to one of the two routines. -/
theorem State.presentCommand_upc (k : CmdCode) (s : State) :
    (s.presentCommand k).upc = s.upc ∨ (s.presentCommand k).upc = 0x02#6 ∨ (s.presentCommand k).upc = 0x0E#6 := by
  rcases s.presentCommand_cases k with ⟨-, h⟩ | ⟨-, -, h⟩ | ⟨-, -, h⟩ | ⟨-, -, -, h⟩ <;> rw [h] <;> simp

/-- The ways in which an instruction moves `upc`, those of R183 and the two ordinary ones. -/
inductive UpcMove (i : Instr) (s t : State) : Prop where
  | stays (h : t.upc = s.upc)
  | next (h : t.upc = s.upc + 1#6)
  | dispatch (hi : i = .wcmd ∨ i = .cmdReset ∨ i = .cmdTriggerAndRead) (h : t.upc = 0x02#6 ∨ t.upc = 0x0E#6)
  | pollExit (l : Line) (v : Bool) (hi : i = .poll l v) (h : t.upc = s.upc + 2#6)
  | waitBack (k : BitVec 3) (hi : i = .wait k true) (h : t.upc = s.upc - 1#6)
  | returns (hi : i = .ret 0 ∨ i = .ret 1 ∨ i = .ret2) (h : t.upc = 0x00#6 ∨ t.upc = 0x01#6)
  | raises (h : t.upc = 0x1F#6) (ha : t.aborting = true) (he : t.err = .timeout ∨ t.err = .misconfiguredLine)

/-- Taking a direction error. -/
theorem UpcMove.misconfigured (l : Line) : UpcMove i s (s.raise .misconfiguredLine l) :=
  .raises rfl rfl (.inr rfl)

/-- The end of a wait goes on, or back with `b = 1`. -/
theorem UpcMove.afterWait {j : BitVec 3} {b : Bool} (h : t.upc = s.afterWait b) : UpcMove (.wait j b) s t := by
  cases b with
  | false => exact .next h
  | true => exact .waitBack j rfl h

/-- Every instruction moves `upc` in one of these ways. -/
theorem exec_upcMove (h : exec i s = .next t) : UpcMove i s t := by
  cases i with
  | nop | sample =>
    obtain rfl := Host.Outcome.next.inj h
    exact .next rfl
  | set l v =>
    rcases execSet_cases h with ⟨-, -, rfl⟩ | ⟨-, -, rfl⟩ | ⟨-, o, -, rfl⟩
    · exact .next rfl
    · exact .misconfigured l
    · exact .next rfl
  | wait j b =>
    obtain ⟨n, -, ⟨-, -, rfl⟩ | ⟨-, -, rfl⟩ | ⟨-, -, rfl⟩ | ⟨-, -, rfl⟩⟩ := execWait_cases h
    · exact .afterWait rfl
    · exact .stays rfl
    · exact .afterWait rfl
    · exact .stays rfl
  | poll l v =>
    rcases execPoll_cases h with ⟨-, rfl⟩ | ⟨-, ⟨-, rfl⟩ | ⟨-, -, rfl⟩ | ⟨-, -, rfl⟩⟩
    · exact .misconfigured l
    · exact .pollExit l v rfl rfl
    · exact .raises rfl rfl (.inl rfl)
    · exact .next rfl
  | capture0 =>
    rcases execCapture0_cases h with ⟨m, -, rfl⟩ | ⟨-, rfl⟩
    · exact .misconfigured m
    · exact .next rfl
  | capture1 =>
    rcases execCapture1_cases h with ⟨m, -, rfl⟩ | ⟨-, rfl⟩
    · exact .misconfigured m
    · exact .next rfl
  | ret m =>
    obtain rfl := Host.Outcome.next.inj h
    rcases BitVec.eq_zero_or_eq_one m with rfl | rfl
    · exact .returns (.inl rfl) (.inl rfl)
    · exact .returns (.inr (.inl rfl)) (.inr rfl)
  | ret2 =>
    obtain rfl : s.endAbort = t := Host.Outcome.next.inj h
    exact .returns (.inr (.inr rfl)) (ite_eq_or_eq _ _ _)
  | wcmd | cmdReset | cmdTriggerAndRead =>
    rcases exec_takesCommand h rfl with rfl | ⟨k, rfl, -⟩
    · exact .stays rfl
    · rcases s.presentCommand_upc k with hu | hu
      · exact .stays hu
      · exact .dispatch (by simp) hu

/-- Settles O46: the moves that are not the two ordinary ones. -/
theorem stepIndexMovesAsSummarised : Obligations.StepIndexMovesAsSummarised := by
  intro i s t h hnext hstays
  cases exec_upcMove h with
  | stays hu => exact absurd hu hstays
  | next hu => exact absurd hu hnext
  | dispatch hi hu => exact .inl ⟨hi, hu⟩
  | pollExit l v hi hu => exact .inr (.inl ⟨l, v, hi, hu⟩)
  | waitBack k hi hu => exact .inr (.inr (.inl ⟨k, hi, hu⟩))
  | returns hi hu => exact .inr (.inr (.inr (.inl ⟨hi, hu⟩)))
  | raises hu ha he => exact .inr (.inr (.inr (.inr ⟨hu, ha, he⟩)))

end Sys2Proof.Machine
end

section
/-! PROOFS. The Report port (`43_control_ops.md` R176, `00_scope.md` R14; log 12). -/

namespace Sys2Proof.Machine

variable {s t : State} {i : Instr}

/-- From `s` to `t` events are recorded, of which the Reports are what the Report port of `t` shows. -/
def Records (s t : State) : Prop :=
  ∃ es : List Event, t.transcript = s.transcript ++ es ∧ es.filterMap Event.asReport = t.report.toList

/-- Nothing is recorded and nothing shown. -/
theorem Records.nothing (hq : t.report = none) (h : t.transcript = s.transcript) : Records s t :=
  ⟨[], by rw [h, List.append_nil], by rw [hq]; rfl⟩

/-- Events that are no Reports leave the port empty. -/
theorem Records.unreported {es : List Event} (hq : t.report = none) (h : t.transcript = s.transcript ++ es)
    (hes : es.filterMap Event.asReport = []) : Records s t :=
  ⟨es, h, by rw [hq]; exact hes⟩

/-- From an empty Report port, a presented command records its code, and a Report if it is refused. -/
theorem State.presentCommand_records (hq : s.report = none) (k : CmdCode) : Records s (s.presentCommand k) := by
  rcases s.presentCommand_cases k with ⟨-, h⟩ | ⟨-, -, h⟩ | ⟨-, -, h⟩ | ⟨-, -, -, h⟩ <;> rw [h]
  · exact .nothing hq rfl
  · exact .unreported hq rfl rfl
  · exact .unreported hq rfl rfl
  · exact ⟨_, rfl, rfl⟩

/-- From an empty Report port, every instruction shows there the Report that it records, if any. -/
theorem exec_records (hq : s.report = none) (h : exec i s = .next t) : Records s t := by
  cases i with
  | nop | ret m =>
    obtain rfl := Host.Outcome.next.inj h
    exact .nothing hq rfl
  | sample | ret2 =>
    obtain rfl := Host.Outcome.next.inj h
    exact ⟨_, rfl, rfl⟩
  | set l v =>
    rcases execSet_cases h with ⟨-, -, rfl⟩ | ⟨-, -, rfl⟩ | ⟨-, o, -, rfl⟩
    · exact .nothing hq rfl
    · exact .nothing hq rfl
    · exact .unreported hq rfl rfl
  | wait j b =>
    obtain ⟨n, -, ⟨-, -, rfl⟩ | ⟨-, -, rfl⟩ | ⟨-, -, rfl⟩ | ⟨-, -, rfl⟩⟩ := execWait_cases h
    · exact .nothing hq rfl
    · exact .nothing hq rfl
    · exact .unreported hq rfl rfl
    · exact .unreported hq rfl rfl
  | poll l v =>
    rcases execPoll_cases h with ⟨-, rfl⟩ | ⟨-, ⟨-, rfl⟩ | ⟨-, -, rfl⟩ | ⟨-, -, rfl⟩⟩
    · exact .nothing hq rfl
    all_goals exact .unreported hq rfl rfl
  | capture0 =>
    rcases execCapture0_cases h with ⟨m, -, rfl⟩ | ⟨-, rfl⟩
    · exact .nothing hq rfl
    · exact .unreported hq rfl rfl
  | capture1 =>
    rcases execCapture1_cases h with ⟨m, -, rfl⟩ | ⟨-, rfl⟩
    · exact .nothing hq rfl
    · exact ⟨_, rfl, rfl⟩
  | wcmd | cmdReset | cmdTriggerAndRead =>
    rcases exec_takesCommand h rfl with rfl | ⟨k, rfl, -⟩
    · exact .nothing hq rfl
    · exact s.presentCommand_records hq k

/-- An outside agent, HWRESET too, records no event and leaves the Report port. -/
theorem State.outsideTurn_record (u : Turn) (s : State) :
    (s.outsideTurn u).transcript = s.transcript ∧ (s.outsideTurn u).report = s.report := by
  rcases s.outsideTurn_cases u with ⟨p, h, -⟩ | ⟨-, -, h⟩ | ⟨p, h, -⟩
  · rw [h]
    exact ⟨rfl, rfl⟩
  · rw [h, State.tick_eq]
    split <;> exact ⟨rfl, rfl⟩
  · rw [h]
    exact ⟨rfl, rfl⟩

/-- Settles O47: a turn begins with an empty Report port, and only an instruction records events. -/
theorem reportPortShowsTheReportOfTheStep : Obligations.ReportPortShowsTheReportOfTheStep := by
  intro s t h
  have hq := s.beginTurn_report
  have begun : Records s.beginTurn t := by
    rcases step_cases h with ⟨-, rfl⟩ | ⟨-, -, rfl⟩ | ⟨-, -, -, rfl⟩ | ⟨-, -, -, i, -, he⟩
    · obtain ⟨htranscript, hreport⟩ := s.beginTurn.outsideTurn_record s.nextTurn
      exact .nothing (hreport.trans hq) htranscript
    · exact .nothing hq rfl
    · exact .nothing hq rfl
    · exact exec_records hq he
  rwa [Records, State.beginTurn_transcript] at begun

end Sys2Proof.Machine
end

section
/-! PROOFS. The input ports make a difference only where they are sampled (`60_exceptions.md` R203,
`40_host_commands.md` R132, `43_control_ops.md` R180). -/

namespace Sys2Proof.Machine

variable {s : State} {p : Pins} {l : Line}

/-- The same state with other levels on the input ports. -/
def State.withPins (s : State) (p : Pins) : State := { s with pins := p }

/-- A Sequencer step that presents a command does not look at the input ports. -/
theorem State.withPins_presentCommand (k : CmdCode) :
    (s.withPins p).presentCommand k = (s.presentCommand k).withPins p := by
  have hready : (s.withPins p).cmdReady = s.cmdReady := rfl
  rcases s.presentCommand_cases k with ⟨hr, h⟩ | ⟨hr, rfl, h⟩ | ⟨hu, rfl, h⟩ | ⟨hr, hreset, htrigger, h⟩ <;> rw [h]
  · exact State.presentCommand_of_busy (hready.trans hr)
  · exact Host.Outcome.next.inj (cmdResetIsAccepted (s.withPins p) (State.cmdReady_eq_true.1 hr))
  · exact Host.Outcome.next.inj (cmdTriggerIsAcceptedAtTheBaseline (s.withPins p) hu)
  · rcases (s.withPins p).presentCommand_cases k with ⟨hb, -⟩ | ⟨-, hk, -⟩ | ⟨hu, hk, -⟩ | ⟨-, -, -, h'⟩
    · simp [hready, hr] at hb
    · exact absurd hk hreset
    · exact absurd ⟨hk, hu⟩ htrigger
    · exact h'

/-- The level that a single-bit read returns depends on the input ports for BUSY only. -/
theorem State.withPins_levelOf (hbusy : s.pins.busy = p.busy) : (s.withPins p).levelOf l = s.levelOf l := by
  cases l with
  | busy => exact hbusy.symm
  | reset | convst | companion | chipSelect | readStrobe | dataLow | dataHigh => rfl

/-- A choice with the same condition, of two states each of which is the other with other input ports. -/
theorem State.withPins_ite {P : Prop} [Decidable P] {x y x' y' : State} (hx : x' = x.withPins p)
    (hy : y' = y.withPins p) : (if P then x' else y') = (if P then x else y).withPins p := by
  split <;> assumption

/-- Settles O44: no operation writes the input ports, and each instruction looks at no more of them than it samples. -/
theorem inputsAreSampledOnlyWhereStated : Obligations.InputsAreSampledOnlyWhereStated := by
  intro i s p halike
  change exec i (s.withPins p) = outcomeWithPins p (exec i s)
  have hcfg : (s.withPins p).cfg = s.cfg := rfl
  cases i with
  | nop | sample | ret m | ret2 => rfl
  | cmdReset | cmdTriggerAndRead => exact congrArg Host.Outcome.next (State.withPins_presentCommand _)
  | wcmd =>
    obtain ⟨hvalid, hcmd⟩ := halike
    have hvalid' : (s.withPins p).pins.cmdValid = s.pins.cmdValid := hvalid.symm
    cases hv : s.pins.cmdValid with
    | false => simp only [exec, execWcmd, hvalid', hv]; rfl
    | true =>
      have hcmd' : (s.withPins p).pins.cmd = s.pins.cmd := (hcmd hv).symm
      rw [execWcmd_of_cmdValid (hvalid'.trans hv), execWcmd_of_cmdValid hv, hcmd', State.withPins_presentCommand]
      rfl
  | set l v =>
    have hdrive : (s.withPins p).driveLine l v = (s.driveLine l v).map (·.withPins p) := by
      rw [State.driveLine, State.driveLine, Option.map_map]
      rfl
    simp only [exec, execSet, hcfg, hdrive]
    cases dirOf s.cfg l with
    | input => exact congrArg Host.Outcome.next (State.withPins_ite rfl rfl)
    | output => cases s.driveLine l v <;> rfl
  | wait k b =>
    simp only [exec, execWait, hcfg]
    cases timeConstant s.cfg k with
    | none => rfl
    | some n =>
      exact congrArg Host.Outcome.next
        (State.withPins_ite (State.withPins_ite rfl rfl) (State.withPins_ite rfl rfl))
  | poll l v =>
    have hlevel : (s.withPins p).levelOf l = s.levelOf l := State.withPins_levelOf halike
    have hread : ((s.withPins p).recordRead l).countPoll = (s.recordRead l).countPoll.withPins p := by
      rw [State.recordRead_eq, hlevel]
      rfl
    simp only [exec, execPoll, hcfg, hlevel, hread]
    cases pollable s.cfg l with
    | false => rfl
    | true => exact congrArg Host.Outcome.next (State.withPins_ite rfl (State.withPins_ite rfl rfl))
  | capture0 | capture1 =>
    obtain ⟨hlow, hhigh⟩ := halike
    have hbuses : (s.withPins p).recordBuses = s.recordBuses.withPins p := by
      rw [State.recordBuses_eq, State.recordBuses_eq, hlow, hhigh]
      rfl
    simp only [exec, execCapture0, execCapture1, hcfg, hbuses, hlow, hhigh]
    cases misconfiguredBus s.cfg <;> rfl

end Sys2Proof.Machine
end

section
/-! PROOFS. The instructions that raise, under which condition, and what the raise records (`60_exceptions.md` R195 to
R197, R200). -/

namespace Sys2Proof.Machine

variable {s t : State} {i : Instr} {l : Line} {v : Bool} {c : Config} {a : StepAddr}

/-! ## All the raises -/

/-- The instruction `i` in `s` raises into `t` (`41_line_ops.md` R141, R146, R150, R151): a line with the wrong
direction, or the timeout of a POLL, which has read its line and counted the read. -/
inductive RaisesInto (s : State) : Instr → State → Prop where
  | set {l : Line} {v : Bool} (hd : dirOf s.cfg l ≠ .output) :
    RaisesInto s (.set l v) (s.raise .misconfiguredLine l)
  | bus {i : Instr} {l : Line} (hi : i = .capture0 ∨ i = .capture1) (hm : misconfiguredBus s.cfg = some l) :
    RaisesInto s i (s.raise .misconfiguredLine l)
  | poll {l : Line} {v : Bool} (hp : pollable s.cfg l = false) :
    RaisesInto s (.poll l v) (s.raise .misconfiguredLine l)
  | timeout {l : Line} {v : Bool} (hp : pollable s.cfg l = true) (hv : s.levelOf l ≠ v)
      (hmax : s.pollCnt + 1#32 = s.cfg.maxBusyPolls) :
    RaisesInto s (.poll l v) ((s.recordRead l).countPoll.raise .timeout l)

/-- A presented command does not touch `aborting`. -/
theorem State.presentCommand_aborting (k : CmdCode) (s : State) : (s.presentCommand k).aborting = s.aborting := by
  rcases s.presentCommand_cases k with ⟨-, h⟩ | ⟨-, -, h⟩ | ⟨-, -, h⟩ | ⟨-, -, -, h⟩ <;> rw [h]

/-- An instruction that enters the abort is one of these raises. -/
theorem raisesInto_of_exec (hidle : s.aborting = false) (h : exec i s = .next t) (ht : t.aborting = true) :
    RaisesInto s i t := by
  have hne : t.aborting ≠ s.aborting := by simp [hidle, ht]
  cases i with
  | set l v =>
    rcases execSet_cases h with ⟨-, -, rfl⟩ | ⟨hd, -, rfl⟩ | ⟨-, o, -, rfl⟩
    · exact absurd rfl hne
    · exact .set (by simp [hd])
    · exact absurd rfl hne
  | wait j b =>
    obtain ⟨n, -, ⟨-, -, rfl⟩ | ⟨-, -, rfl⟩ | ⟨-, -, rfl⟩ | ⟨-, -, rfl⟩⟩ := execWait_cases h
    all_goals exact absurd rfl hne
  | poll l v =>
    rcases execPoll_cases h with ⟨hp, rfl⟩ | ⟨hp, ⟨-, rfl⟩ | ⟨hv, hmax, rfl⟩ | ⟨-, -, rfl⟩⟩
    · exact .poll hp
    · exact absurd rfl hne
    · exact .timeout hp hv hmax
    · exact absurd rfl hne
  | capture0 =>
    rcases execCapture0_cases h with ⟨m, hm, rfl⟩ | ⟨-, rfl⟩
    · exact .bus (.inl rfl) hm
    · exact absurd rfl hne
  | capture1 =>
    rcases execCapture1_cases h with ⟨m, hm, rfl⟩ | ⟨-, rfl⟩
    · exact .bus (.inr rfl) hm
    · exact absurd rfl hne
  | nop | sample | ret m =>
    obtain rfl := Host.Outcome.next.inj h
    exact absurd rfl hne
  | ret2 =>
    obtain rfl := Host.Outcome.next.inj h
    cases ht
  | wcmd | cmdReset | cmdTriggerAndRead =>
    rcases exec_takesCommand h rfl with rfl | ⟨k, rfl, -⟩
    · exact absurd rfl hne
    · exact absurd (s.presentCommand_aborting k) hne

/-- Each of these raises happens. -/
theorem RaisesInto.exec_eq (h : RaisesInto s i t) (hidle : s.aborting = false) : exec i s = .next t := by
  cases h with
  | set hd => rw [execSet_of_not_output hd, if_neg (by simp [hidle])]
  | bus hi hm => exact execCapture_raises hi hm
  | poll hp => simp only [exec, execPoll, hp, Bool.false_eq_true, if_false]
  | @timeout l v hp hv hmax =>
    have hlast : (s.recordRead l).countPoll.pollCnt = (s.recordRead l).countPoll.cfg.maxBusyPolls := hmax
    simp only [exec, execPoll, hp, if_true, if_neg hv, if_pos hlast]

/-- Settles O45: by the kind of raise; the three for a wrong direction all are the plain raise. -/
theorem raisesArePrecise : Obligations.RaisesArePrecise := by
  intro i s t hidle h ht
  cases raisesInto_of_exec hidle h ht with
  | set _ | bus _ _ | poll _ => exact .inl ⟨_, rfl⟩
  | timeout _ hv hmax => exact .inr ⟨_, _, _, _, rfl, hv, hmax, rfl⟩

/-! ## Where they stand in the spec's ROM -/

/-- The addresses of a SET outside the abort routine (`60_exceptions.md` R195). -/
abbrev raisingSets : List StepAddr :=
  [0x02, 0x03, 0x04, 0x05, 0x06, 0x08, 0x0A, 0x0E, 0x0F, 0x13, 0x14, 0x15, 0x17, 0x1A, 0x1C]

/-- Outside the abort routine a SET stands only there. -/
theorem mem_raisingSets (h : romOp c a = .ok (.set l v)) (ha : a.toNat < 0x1F) : a ∈ raisingSets := by
  have hat := romOp_standsAt h
  have hmem : a.toNat ∈ raisingSets.map BitVec.toNat := by
    cases l <;> cases v <;> simp [standsAt] at hat <;> simp <;> omega
  exact (List.mem_map_of_injective fun _ _ => BitVec.eq_of_toNat_eq).1 hmem

/-- At each of them stands a SET. -/
theorem romOp_of_mem_raisingSets (h : a ∈ raisingSets) : ∃ l v, romOp c a = .ok (.set l v) := by
  fin_cases h <;> exact ⟨_, _, romOp_of_romOps rfl⟩

/-- Only 0x11 holds a POLL, of BUSY until it is 0. -/
theorem romOp_eq_poll : romOp c a = .ok (.poll l v) ↔ a = 0x11#6 ∧ l = .busy ∧ v = false := by
  constructor
  · intro h
    have hat := romOp_standsAt h
    cases l <;> cases v <;> simp [standsAt] at hat
    exact ⟨BitVec.eq_of_toNat_eq hat, rfl, rfl⟩
  · rintro ⟨rfl, rfl, rfl⟩
    exact romOp_of_romOps rfl

/-- The captures stand at 0x19 and, with the diagnostic read-back, at 0x0C, and nothing else stands there. -/
theorem capture_iff_of_romOp (h : romOp c a = .ok i) :
    (i = .capture0 ∨ i = .capture1) ↔ (a = 0x0C#6 ∧ c.diagReadback = true ∨ a = 0x19#6) := by
  constructor
  · rintro (rfl | rfl)
    · exact .inr (romOp_eq_capture0.1 h)
    · exact .inl (romOp_eq_capture1.1 h)
  · rintro (hdiag | hsample)
    · exact .inr (Except.ok.inj (h.symm.trans (romOp_eq_capture1.2 hdiag)))
    · exact .inl (Except.ok.inj (h.symm.trans (romOp_eq_capture0.2 hsample)))

/-- The abort routine holds SETs and its return. -/
theorem set_or_ret2_of_abortRoutine {n : Nat} (h : standsAt i n = true) (hn : 0x1F ≤ n ∧ n ≤ 0x24) :
    (∃ l v, i = .set l v) ∨ i = .ret2 := by
  cases i with
  | set l v => exact .inl ⟨l, v, rfl⟩
  | ret2 => exact .inr rfl
  | wait k b => cases b <;> simp [standsAt] at h <;> omega
  | poll l v => cases l <;> cases v <;> simp [standsAt] at h; omega
  | nop | capture0 | capture1 | sample | wcmd => simp [standsAt] at h; omega
  | ret m =>
    simp only [standsAt] at h
    split at h <;> simp at h <;> omega
  | cmdReset | cmdTriggerAndRead => simp [standsAt] at h

/-! ## The table of R195 -/

/-- Outside the abort `upc` stands before the abort routine. -/
theorem State.Inv.upc_lt_abortEntry (h : s.Inv) (hidle : s.aborting = false) : s.upc.toNat < 0x1F := by
  by_contra hge
  have hused := h.upcUsed
  simp [h.abortingIff.2 ⟨by omega, hused⟩] at hidle

/-- An instruction of the abort routine keeps the recorded error and does not go to the abort entry. -/
theorem exec_aborting (hinv : s.Inv) (hop : romOp s.cfg s.upc = .ok i) (habort : s.aborting = true)
    (h : exec i s = .next t) : t.err = s.err ∧ t.errLine = s.errLine ∧ t.upc ≠ 0x1F#6 := by
  have hwithin := hinv.abortingIff.1 habort
  have hnext : s.upc + 1#6 ≠ 0x1F#6 := by
    obtain ⟨hlo, hhi⟩ := hwithin
    bv_omega
  rcases set_or_ret2_of_abortRoutine (romOp_standsAt hop) hwithin with ⟨l, v, rfl⟩ | rfl
  · rcases execSet_cases h with ⟨-, -, rfl⟩ | ⟨-, hidle, -⟩ | ⟨-, o, -, rfl⟩
    · exact ⟨rfl, rfl, hnext⟩
    · simp [habort] at hidle
    · exact ⟨rfl, rfl, hnext⟩
  · obtain rfl : s.endAbort = t := Host.Outcome.next.inj h
    refine ⟨rfl, rfl, ?_⟩
    rw [State.endAbort_upc]
    split <;> decide

/-- The state after a raise for a wrong direction, as the statement of R195 lists it. -/
theorem RaisesInto.records (h : RaisesInto s i (s.raise .misconfiguredLine l)) (hidle : s.aborting = false) :
    ∃ t, exec i s = .next t ∧ t.aborting = true ∧ t.err = .misconfiguredLine ∧ t.errLine = l.id ∧
      t.upc = 0x1F#6 :=
  ⟨_, h.exec_eq hidle, rfl, rfl, rfl, rfl⟩

/-- Settles O48: an instruction of the abort routine is a SET or its return; outside it, each raise stands at the
addresses of its row, and at those addresses stands an instruction that raises. -/
theorem raisePointsOfTheRom : Obligations.RaisePointsOfTheRom := by
  refine ⟨fun _ _ _ => exec_aborting, fun s t i hinv hop hidle h ht => ?_,
    fun s i hop hidle => ⟨fun hu => ?_, fun hu => ⟨fun hlow => ?_, fun hlow hhigh => ?_⟩, fun hu => ?_⟩⟩
  · cases raisesInto_of_exec hidle h ht with
    | @set l v hd => exact .inl ⟨mem_raisingSets hop (hinv.upc_lt_abortEntry hidle), rfl, l, v, rfl, hd, rfl⟩
    | bus hi hm =>
      refine .inr (.inl ⟨(capture_iff_of_romOp hop).1 hi, rfl, ?_⟩)
      rcases misconfiguredBus_eq_some.1 hm with ⟨hlow, rfl⟩ | ⟨hlow, hhigh, rfl⟩
      · exact .inl ⟨hlow, rfl⟩
      · exact .inr ⟨hlow, hhigh, rfl⟩
    | poll hp =>
      obtain ⟨hu, rfl, rfl⟩ := romOp_eq_poll.1 hop
      exact .inr (.inr (.inl ⟨hu, by simpa using pollable_eq_false.1 hp, rfl, rfl⟩))
    | timeout hp hv hmax =>
      obtain ⟨hu, rfl, rfl⟩ := romOp_eq_poll.1 hop
      exact .inr (.inr (.inr ⟨hu, (pollable_eq_true.1 hp).1, by simpa using hv, hmax, rfl, rfl⟩))
  · obtain ⟨l, v, hset⟩ := romOp_of_mem_raisingSets (c := s.cfg) hu
    obtain rfl := Except.ok.inj (hop.symm.trans hset)
    exact ⟨l, v, rfl, fun hd => (RaisesInto.set hd).records hidle⟩
  · have hbus := misconfiguredBus_eq_some.2 (.inl ⟨hlow, rfl⟩)
    exact (RaisesInto.bus ((capture_iff_of_romOp hop).2 hu) hbus).records hidle
  · have hbus := misconfiguredBus_eq_some.2 (.inr ⟨hlow, hhigh, rfl⟩)
    exact (RaisesInto.bus ((capture_iff_of_romOp hop).2 hu) hbus).records hidle
  · obtain rfl := Except.ok.inj (hop.symm.trans (romOp_eq_poll.2 ⟨hu, rfl, rfl⟩))
    refine ⟨fun hd => ?_, fun hd hbusy hmax => ?_⟩
    · exact (RaisesInto.poll (l := .busy) (pollable_eq_false.2 (.inl hd))).records hidle
    · have hraise : RaisesInto s (.poll .busy false) ((s.recordRead .busy).countPoll.raise .timeout .busy) :=
        .timeout (pollable_eq_true.2 ⟨hd, nofun, nofun⟩) (by simp [hbusy]) hmax
      exact ⟨_, hraise.exec_eq hidle, rfl, rfl, rfl, rfl⟩

end Sys2Proof.Machine
end

section
/-! PROOFS. The abort routine under every configuration of directions (`60_exceptions.md` R198 to R200). -/

namespace Sys2Proof.Machine

variable {s x : State} {l m : Line} {v : Bool} {c : Config} {o : Outputs} {ps : List (Line × Bool)}

/-! ## The SETs of the abort routine -/

/-- The output registers after a SET that skips a line that is not configured `Out`. -/
def Outputs.force (c : Config) (o : Outputs) (p : Line × Bool) : Outputs :=
  if dirOf c p.1 = .output then (o.write p.1 p.2).getD o else o

/-- Only the line that is set has another level, and only if it is configured `Out`. -/
theorem Outputs.force_level (hid : l.id.toNat ≤ 4) :
    (o.force c (l, v)).level m = if m = l ∧ dirOf c l = .output then some v else o.level m := by
  obtain ⟨o', ho⟩ := Outputs.write_of_id_le (o := o) (v := v) hid
  obtain ⟨hlevel, hothers⟩ := Outputs.write_spec ho
  by_cases hd : dirOf c l = .output
  · rw [Outputs.force, if_pos hd, ho, Option.getD_some]
    by_cases hm : m = l
    · rw [if_pos ⟨hm, hd⟩, hm, hlevel]
    · rw [if_neg fun h => hm h.1, hothers m hm]
  · rw [Outputs.force, if_neg hd, if_neg fun h => hd h.2]

/-- The events of such SETs. -/
def forceEvents (c : Config) (ps : List (Line × Bool)) : List Event :=
  (ps.filter fun p : Line × Bool => dirOf c p.1 = .output).map fun p => .set p.1 p.2

/-- The state after such SETs, one after the other. -/
def State.force (ps : List (Line × Bool)) (x : State) : State :=
  { x with
    out := ps.foldl (Outputs.force x.cfg) x.out
    transcript := x.transcript ++ forceEvents x.cfg ps
    upc := x.upc + BitVec.ofNat 6 ps.length }

theorem State.force_nil (x : State) : x.force [] = x := by simp [State.force, forceEvents]

theorem State.force_cons (p : Line × Bool) (ps : List (Line × Bool)) (x : State) :
    x.force (p :: ps) = (x.force [p]).force ps := by
  have hevents : forceEvents x.cfg (p :: ps) = forceEvents x.cfg [p] ++ forceEvents x.cfg ps := by
    rw [forceEvents, forceEvents, forceEvents, ← List.map_append, ← List.filter_append, List.singleton_append]
  simp [State.force, hevents, BitVec.ofNat_add, BitVec.add_assoc, BitVec.add_comm 1#6]

/-- A SET in the abort routine, whatever the direction of its line. -/
theorem execSet_force (habort : s.aborting = true) (hid : l.id.toNat ≤ 4) :
    exec (.set l v) s = .next (s.force [(l, v)]) := by
  by_cases hd : dirOf s.cfg l = .output
  · obtain ⟨o, ho⟩ := Outputs.write_of_id_le (o := s.out) (v := v) hid
    rw [execSet_eq hd ho]
    simp [State.drive, State.force, Outputs.force, forceEvents, hd]
  · rw [execSet_of_not_output hd, if_pos habort]
    simp [State.force, Outputs.force, forceEvents, hd, State.advance, State.goto]

/-- SETs of the spec's ROM, one after the other, in the abort routine. -/
theorem Takes.force (hr : x.Runnable) (hrom : x.rom = []) (hwait : x.waiting = false) (habort : x.aborting = true)
    (hstand : StandFrom x.cfg x.upc (ps.map fun p => .drive p.1 p.2)) :
    Takes x (List.replicate ps.length .sequencer) (x.force ps) := by
  induction ps generalizing x with
  | nil =>
    rw [State.force_nil]
    exact .refl x
  | cons p ps ih =>
    obtain ⟨hop, hstand⟩ := hstand
    have hid : p.1.id.toNat ≤ 4 := line_id_le_of_standsAt (romOp_standsAt hop)
    have first : Takes x [.sequencer] (x.force [p]) :=
      .op hr hrom (by simp [State.held, hwait]) hop fun rest =>
        execSet_force (s := { x with agenda := rest }) habort hid
    rw [State.force_cons]
    exact first.trans (ih (hr.of_same rfl rfl rfl) hrom hwait habort hstand)

/-! ## The idle levels -/

/-- The lines in the order of R198, with their idle levels. -/
def idleLevels : List (Line × Bool) :=
  [(.readStrobe, true), (.chipSelect, true), (.convst, false), (.companion, false), (.reset, true)]

theorem forceEvents_idleLevels (c : Config) : forceEvents c idleLevels = abortEvents c := rfl

theorem foldl_force_idleLevels (c : Config) (o : Outputs) :
    idleLevels.foldl (Outputs.force c) o = idleOutputs c o := by
  refine Outputs.ext_level fun m => ?_
  simp (disch := decide) only [idleLevels, List.foldl_cons, List.foldl_nil, Outputs.force_level]
  cases m <;> simp only [idleOutputs, Outputs.level, apply_ite some, reduceCtorEq, true_and, false_and, if_false]

/-- The state that the SETs of the abort routine lead to. -/
theorem State.force_idleLevels (x : State) :
    x.force idleLevels =
      { x with
        out := idleOutputs x.cfg x.out, transcript := x.transcript ++ abortEvents x.cfg, upc := x.upc + 5#6 } := by
  rw [State.force, foldl_force_idleLevels, forceEvents_idleLevels]
  rfl

/-- Settles O55: five SETs that force or skip their line, then the return. -/
theorem abortRoutineForcesTheLinesIdle : Obligations.AbortRoutineForcesTheLinesIdle := by
  intro s rest hrom hlegal hu habort hwait hreset hagenda
  let begun : State := { s with report := none }
  have hr : begun.Runnable := ⟨hlegal, hreset, rfl⟩
  have hstand : StandFrom begun.cfg begun.upc (idleLevels.map fun p => .drive p.1 p.2) :=
    hu ▸ abortActs_stand s.cfg
  have hsets := Takes.force hr hrom hwait habort hstand
  have hreturn : Takes (begun.force idleLevels) [.sequencer] (begun.force idleLevels).endAbort :=
    .op (hr.of_same rfl rfl rfl) hrom (by simp [State.held, State.force, begun, hwait])
      (romOp_eq_ret2.2 (by simp [State.force, begun, hu, idleLevels])) fun _ => rfl
  have hrun := (Takes.of_cleared (hsets.trans hreturn)).run hagenda
  refine hrun.trans ?_
  rw [State.force_idleLevels]
  rfl

end Sys2Proof.Machine
end

section
/-! PROOFS. The read window (`70_reset_and_hazards.md` R230, R231): which turns record a bus read, which lower
CHIP_SELECT or READ_STROBE, and how many ticks the turns up to `CAPTURE 0` hold. -/

namespace Sys2Proof.Machine

variable {s t : State} {i : Instr} {ts rest : List Turn} {q : U32} {k : BitVec 3} {b : Bool}

/-- Settles O52: a clause of the invariant. -/
theorem readStrobeOnlyInsideChipSelect : Obligations.ReadStrobeOnlyInsideChipSelect :=
  fun _ hs => hs.inv.readWindow

/-! ## A step with the spec's ROM, HWRESET included -/

/-- All that a step can be where the spec's ROM stands: HWRESET, a tick, other levels on the input ports at most, or the
execution of the micro-op at `upc`. -/
inductive TurnOf (s t : State) : Prop where
  | reset (p : Pins) (next : t = ({ s.beginTurn with pins := p } : State).hwReset)
  | tick (turn : s.nextTurn = .tick) (next : t = s.beginTurn.tick)
  | ports (p : Pins) (next : t = { s.beginTurn with pins := p })
  | op (i : Instr) (op : romOp s.cfg s.upc = .ok i) (next : exec i s.beginTurn = .next t)

theorem State.Inv.turnOf (h : s.Inv) (hs : step s = .next t) : TurnOf s t := by
  rcases Machine.step_cases hs with ⟨-, rfl⟩ | ⟨-, -, rfl⟩ | ⟨-, -, -, rfl⟩ | ⟨-, -, -, i, hi, he⟩
  · rcases s.beginTurn.outsideTurn_cases s.nextTurn with ⟨p, ht, -⟩ | ⟨-, htick, ht⟩ | ⟨p, ht, -⟩
    · exact .reset p ht
    · exact .tick htick ht
    · exact .ports p ht
  · exact .reset s.beginTurn.pins rfl
  · exact .ports s.beginTurn.pins rfl
  · rw [h.specRom, Rom.word_nil] at hi
    exact .op i hi he

/-- Every step takes one turn from the agenda. -/
theorem State.Inv.step_agenda (h : s.Inv) (hs : step s = .next t) : t.agenda = s.agenda.tail := by
  rw [← s.beginTurn_agenda]
  cases h.turnOf hs with
  | reset p next | ports p next =>
    subst next
    rfl
  | tick _ next =>
    rw [next, State.tick_eq]
    split <;> rfl
  | op i _ next => exact (exec_sameSurroundings next).agenda

/-! ## Bus reads -/

/-- From `s` to `t` events are recorded, none of which is the read of a bus. -/
def ReadsNoBus (s t : State) : Prop :=
  ∃ es : List Event, t.transcript = s.transcript ++ es ∧ ∀ l v, .readByte l v ∉ es

theorem ReadsNoBus.nothing (h : t.transcript = s.transcript) : ReadsNoBus s t :=
  ⟨[], by rw [h, List.append_nil], fun _ _ => List.not_mem_nil⟩

/-- What the steps after `s` record stands behind the transcript of `s`. -/
theorem ReadsNoBus.not_mem_drop (h : ReadsNoBus s t) (l : Line) (v : Byte) :
    .readByte l v ∉ t.transcript.drop s.transcript.length := by
  obtain ⟨es, hes, hnone⟩ := h
  rw [hes, List.drop_left]
  exact hnone l v

theorem State.presentCommand_readsNoBus (c : CmdCode) (s : State) : ReadsNoBus s (s.presentCommand c) := by
  rcases s.presentCommand_cases c with ⟨-, h⟩ | ⟨-, -, h⟩ | ⟨-, -, h⟩ | ⟨-, -, -, h⟩ <;> rw [h]
  · exact .nothing rfl
  · exact ⟨_, rfl, by simp⟩
  · exact ⟨_, rfl, by simp⟩
  · exact ⟨_, rfl, by simp⟩

/-- Only the captures read a bus. -/
theorem exec_readsNoBus (h : exec i s = .next t) (h0 : i ≠ .capture0) (h1 : i ≠ .capture1) : ReadsNoBus s t := by
  cases i with
  | nop | ret m =>
    obtain rfl := Host.Outcome.next.inj h
    exact .nothing rfl
  | sample | ret2 =>
    obtain rfl := Host.Outcome.next.inj h
    exact ⟨_, rfl, by simp⟩
  | set l v =>
    rcases execSet_cases h with ⟨-, -, rfl⟩ | ⟨-, -, rfl⟩ | ⟨-, o, -, rfl⟩
    · exact .nothing rfl
    · exact .nothing rfl
    · exact ⟨_, rfl, by simp⟩
  | wait j b =>
    obtain ⟨n, -, ⟨-, -, rfl⟩ | ⟨-, -, rfl⟩ | ⟨-, -, rfl⟩ | ⟨-, -, rfl⟩⟩ := execWait_cases h
    · exact .nothing rfl
    · exact .nothing rfl
    · exact ⟨_, rfl, by simp⟩
    · exact ⟨_, rfl, by simp⟩
  | poll l v =>
    rcases execPoll_cases h with ⟨-, rfl⟩ | ⟨-, ⟨-, rfl⟩ | ⟨-, -, rfl⟩ | ⟨-, -, rfl⟩⟩
    · exact .nothing rfl
    all_goals exact ⟨_, rfl, by simp⟩
  | capture0 => exact absurd rfl h0
  | capture1 => exact absurd rfl h1
  | wcmd | cmdReset | cmdTriggerAndRead =>
    rcases exec_takesCommand h rfl with rfl | ⟨c, rfl, -⟩
    · exact .nothing rfl
    · exact s.presentCommand_readsNoBus c

/-- A step that reads a bus executes one of the captures. -/
theorem State.Inv.capture_of_readByte (h : s.Inv) (hs : step s = .next t) {l : Line} {v : Byte}
    (hmem : .readByte l v ∈ t.transcript.drop s.transcript.length) :
    ∃ i, romOp s.cfg s.upc = .ok i ∧ exec i s.beginTurn = .next t ∧ (i = .capture0 ∨ i = .capture1) := by
  have hread : ¬ReadsNoBus s.beginTurn t := fun hno => by
    have hnone := hno.not_mem_drop l v
    rw [State.beginTurn_transcript] at hnone
    exact hnone hmem
  cases h.turnOf hs with
  | reset p next | ports p next =>
    subst next
    exact absurd (.nothing rfl) hread
  | tick _ next =>
    refine absurd (.nothing ?_) hread
    rw [next, State.tick_eq]
    split <;> rfl
  | op i hop next =>
    refine ⟨i, hop, next, ?_⟩
    by_contra hne
    obtain ⟨h0, h1⟩ := not_or.1 hne
    exact hread (exec_readsNoBus next h0 h1)

/-! ## The falls of CHIP_SELECT and READ_STROBE -/

/-- All that a step can do to the lines: it leaves them, or resets them, or drives the one of the SET at `upc`. -/
theorem State.Inv.step_out (h : s.Inv) (hs : step s = .next t) :
    t.out = s.out ∨ t.out = .atReset ∨
      ∃ l v, romOp s.cfg s.upc = .ok (.set l v) ∧ s.out.write l v = some t.out ∧ t.upc = s.upc + 1#6 ∧
        t.waiting = false := by
  cases h.turnOf hs with
  | reset p next => exact .inr (.inl (by rw [next]; rfl))
  | ports p next => exact .inl (by rw [next]; exact s.beginTurn_out)
  | tick _ next =>
    refine .inl ?_
    rw [next, State.tick_eq]
    split <;> exact s.beginTurn_out
  | op i hop next =>
    by_cases hset : ∃ l v, i = .set l v
    · obtain ⟨l, v, rfl⟩ := hset
      have hw : s.waiting = false := (h.notWaiting_of_op hop (by simp)).1
      rcases execSet_cases next with ⟨-, -, rfl⟩ | ⟨-, -, rfl⟩ | ⟨-, o, ho, rfl⟩
      · exact .inl s.beginTurn_out
      · exact .inl s.beginTurn_out
      · rw [State.beginTurn_out] at ho
        exact .inr (.inr ⟨l, v, hop, ho, congrArg (· + 1#6) s.beginTurn_upc, s.beginTurn_waiting.trans hw⟩)
    · refine .inl (((exec_dataFrame next).out fun l v hi => hset ⟨l, v, hi⟩).trans s.beginTurn_out)

/-- A line that is high after reset falls only by its own SET. -/
theorem State.Inv.line_falls {m : Line} (h : s.Inv) (hs : step s = .next t)
    (hreset : Outputs.atReset.level m = some true) (hhigh : s.out.level m = some true) (hlow : t.out.level m = some false) :
    romOp s.cfg s.upc = .ok (.set m false) ∧ t.upc = s.upc + 1#6 ∧ t.waiting = false := by
  rcases h.step_out hs with hout | hout | ⟨l, v, hop, hwrite, hu, hw⟩
  · simp [hout, hhigh] at hlow
  · simp [hout, hreset] at hlow
  · obtain ⟨hlevel, hothers⟩ := Outputs.write_spec hwrite
    obtain rfl : m = l := by
      by_contra hne
      simp [hothers m hne, hhigh] at hlow
    obtain rfl : v = false := by simpa [hlevel] using hlow
    exact ⟨hop, hu, hw⟩

/-- CHIP_SELECT falls by the SET at 0x15 only. -/
theorem State.Inv.chipSelect_falls (h : s.Inv) (hs : step s = .next t) (hhigh : s.out.chipSelect = true)
    (hlow : t.out.chipSelect = false) : t.upc = 0x16#6 ∧ t.waiting = false := by
  obtain ⟨hop, hu, hw⟩ := h.line_falls (m := .chipSelect) hs rfl (congrArg some hhigh) (congrArg some hlow)
  have hat : s.upc = 0x15#6 := BitVec.eq_of_toNat_eq (by simpa [standsAt] using romOp_standsAt hop)
  exact ⟨by rw [hu, hat]; rfl, hw⟩

/-- READ_STROBE falls by the SET at 0x17 only. -/
theorem State.Inv.readStrobe_falls (h : s.Inv) (hs : step s = .next t) (hhigh : s.out.readStrobe = true)
    (hlow : t.out.readStrobe = false) : t.upc = 0x18#6 ∧ t.waiting = false := by
  obtain ⟨hop, hu, hw⟩ := h.line_falls (m := .readStrobe) hs rfl (congrArg some hhigh) (congrArg some hlow)
  have hat : s.upc = 0x17#6 := BitVec.eq_of_toNat_eq (by simpa [standsAt] using romOp_standsAt hop)
  exact ⟨by rw [hu, hat]; rfl, hw⟩

/-! ## The ticks before `CAPTURE 0` -/

/-- The ticks that the WAIT at `upc` with the time constant `q` still takes at least. -/
def State.owed (s : State) (q : U32) : Nat := if s.waiting then min s.waitCnt.toNat q.toNat else q.toNat

/-- The ticks that every run from `s` to `CAPTURE 0` takes at least: those of the waits at 0x16 and 0x18 that lie
before it. -/
def State.captureDue (s : State) : Nat :=
  if s.upc = 0x19#6 then 0
  else if s.upc = 0x18#6 then s.owed s.cfg.tRdPulse
  else if s.upc = 0x17#6 then s.cfg.tRdPulse.toNat
  else if s.upc = 0x16#6 then s.owed s.cfg.tCsSettle + s.cfg.tRdPulse.toNat
  else s.cfg.tCsSettle.toNat + s.cfg.tRdPulse.toNat

theorem State.owed_le (s : State) (q : U32) : s.owed q ≤ q.toNat := by
  unfold State.owed
  split <;> omega

/-- No state is further from `CAPTURE 0` than both waits. -/
theorem State.captureDue_le (s : State) : s.captureDue ≤ s.cfg.tCsSettle.toNat + s.cfg.tRdPulse.toNat := by
  have hpulse := s.owed_le s.cfg.tRdPulse
  have hsettle := s.owed_le s.cfg.tCsSettle
  unfold State.captureDue
  split_ifs <;> omega

/-- Outside the read window both waits are ahead. -/
theorem State.captureDue_outside (h : ¬s.within 0x16 0x19) :
    s.captureDue = s.cfg.tCsSettle.toNat + s.cfg.tRdPulse.toNat := by
  have hne : s.upc ≠ 0x19#6 ∧ s.upc ≠ 0x18#6 ∧ s.upc ≠ 0x17#6 ∧ s.upc ≠ 0x16#6 := by
    refine ⟨?_, ?_, ?_, ?_⟩ <;> rintro hu <;> simp [State.within, hu] at h
  obtain ⟨h19, h18, h17, h16⟩ := hne
  rw [State.captureDue, if_neg h19, if_neg h18, if_neg h17, if_neg h16]


theorem State.beginTurn_captureDue (s : State) : s.beginTurn.captureDue = s.captureDue := by
  simp [State.captureDue, State.owed]

/-- A tick lowers the ticks due by one at most. -/
theorem State.captureDue_le_tick (s : State) : s.captureDue ≤ s.tick.captureDue + 1 := by
  rw [State.tick_eq]
  split
  next hheld =>
    obtain ⟨-, hc⟩ := State.held_eq_true.1 hheld
    have howed (q : U32) : s.owed q ≤ State.owed { s with waitCnt := s.waitCnt - 1#32 } q + 1 := by
      have hcount : (s.waitCnt - 1#32).toNat + 1 = s.waitCnt.toNat := by bv_omega
      unfold State.owed
      dsimp only
      split <;> omega
    have hpulse := howed s.cfg.tRdPulse
    have hsettle := howed s.cfg.tCsSettle
    unfold State.captureDue
    dsimp only
    split_ifs <;> omega
  next => exact Nat.le_succ _

/-- A WAIT whose end goes on: the ticks owed to it come first. -/
theorem State.owed_le_of_execWait (hk : timeConstant s.cfg k = some q) (he : exec (.wait k false) s = .next t) :
    t.upc = s.upc ∧ s.owed q ≤ t.owed q ∨ t.upc = s.upc + 1#6 ∧ s.owed q = 0 := by
  obtain ⟨n, hn, hcases⟩ := execWait_cases he
  obtain rfl : q = n := Option.some.inj (hk.symm.trans hn)
  rcases hcases with ⟨hw, hc, rfl⟩ | ⟨-, -, rfl⟩ | ⟨hw, rfl, rfl⟩ | ⟨hw, -, rfl⟩
  · exact .inr ⟨rfl, by simp [State.owed, hw, hc]⟩
  · exact .inl ⟨rfl, le_rfl⟩
  · exact .inr ⟨rfl, by simp [State.owed, hw]⟩
  · exact .inl ⟨rfl, by simp [State.owed, hw]⟩

/-- The WAIT for T_CS_SETTLE stands at 0x16, the one for T_RD_PULSE at 0x18. -/
theorem romOp_windowWaits (c : Config) :
    romOp c 0x16#6 = .ok (.wait 3 false) ∧ romOp c 0x18#6 = .ok (.wait 4 false) :=
  ⟨romOp_of_romOps rfl, romOp_of_romOps rfl⟩

/-- A move from an address without one of the two waits leaves as many ticks due. -/
theorem Moves.captureDue_le (m : Moves s t) (h16 : s.upc ≠ 0x16#6) (h18 : s.upc ≠ 0x18#6) :
    s.captureDue ≤ t.captureDue := by
  have outside (hcfg : t.cfg = s.cfg) (hout : ¬t.within 0x16 0x19) : s.captureDue ≤ t.captureDue := by
    rw [State.captureDue_outside hout, hcfg]
    exact s.captureDue_le
  cases m with
  | stays m => simp [State.captureDue, m.upc, m.cfg, h16, h18]
  | begins m => exact outside m.cfg (by rcases m.entry with ⟨-, hu, -⟩ | ⟨-, hu, -⟩ <;> simp [State.within, hu])
  | raises m => exact outside m.cfg (by simp [State.within, m.upc])
  | returns m =>
    refine outside m.cfg ?_
    rcases m.exit with ⟨-, hu⟩ | ⟨-, hu⟩
    · simp [State.within, hu]
    · rw [State.within, hu]
      split <;> simp
  | goesOn m =>
    have hf := m.follows.toNat
    by_cases hin : t.within 0x16 0x19
    · have hfall : s.upc = 0x15#6 ∧ t.upc = 0x16#6 ∨ s.upc = 0x17#6 ∧ t.upc = 0x18#6 := by bv_omega
      rcases hfall with ⟨hs, ht⟩ | ⟨hs, ht⟩ <;> simp [State.captureDue, State.owed, hs, ht, m.waiting, m.cfg]
    · exact outside m.cfg hin

/-- An executed micro-op leaves as many ticks due: only ticks lower what is owed to a wait. -/
theorem exec_captureDue_le (h : s.Inv) (hop : romOp s.cfg s.upc = .ok i) (he : exec i s = .next t) :
    s.captureDue ≤ t.captureDue := by
  have hcfg : t.cfg = s.cfg := (exec_sameSurroundings he).cfg
  by_cases h16 : s.upc = 0x16#6
  · obtain rfl : i = .wait 3 false := Except.ok.inj (hop.symm.trans (h16 ▸ (romOp_windowWaits s.cfg).1))
    rcases State.owed_le_of_execWait (q := s.cfg.tCsSettle) rfl he with ⟨hu, howed⟩ | ⟨hu, howed⟩
    · simpa [State.captureDue, hu, h16, hcfg] using howed
    · simp [State.captureDue, hu, h16, hcfg, howed]
  by_cases h18 : s.upc = 0x18#6
  · obtain rfl : i = .wait 4 false := Except.ok.inj (hop.symm.trans (h18 ▸ (romOp_windowWaits s.cfg).2))
    rcases State.owed_le_of_execWait (q := s.cfg.tRdPulse) rfl he with ⟨hu, howed⟩ | ⟨hu, howed⟩
    · simpa [State.captureDue, hu, h18, hcfg] using howed
    · simp [State.captureDue, hu, h18, howed]
  exact (exec_moves h hop he).captureDue_le h16 h18

/-- A step lowers the ticks due by one at most, and only a tick does. -/
theorem State.Inv.captureDue_le_step (h : s.Inv) (hs : step s = .next t) :
    s.captureDue ≤ t.captureDue + ticksIn [s.nextTurn] := by
  rw [← s.beginTurn_captureDue]
  have of_le (hle : s.beginTurn.captureDue ≤ t.captureDue) :
      s.beginTurn.captureDue ≤ t.captureDue + ticksIn [s.nextTurn] := hle.trans (Nat.le_add_right _ _)
  cases h.turnOf hs with
  | reset p next =>
    refine of_le ?_
    subst next
    exact State.captureDue_le _
  | tick turn next =>
    rw [turn, next]
    exact s.beginTurn.captureDue_le_tick
  | ports p next => exact of_le (by rw [next]; exact le_rfl)
  | op i hop next => exact of_le (exec_captureDue_le h.beginTurn (by simpa using hop) next)

/-- By induction on the turns: what is due at the start comes as ticks or is due at the end. -/
theorem State.Inv.captureDue_le_run (h : s.Inv) (ha : s.agenda = ts ++ rest)
    (hrun : Host.Core.run core ts.length s = .next t) : s.captureDue ≤ t.captureDue + ticksIn ts := by
  induction ts generalizing s with
  | nil =>
    obtain rfl : s = t := Host.Outcome.next.inj hrun
    exact Nat.le_add_right _ _
  | cons a ts ih =>
    obtain ⟨v, hv, hrest⟩ := run_succ_eq_next.1 hrun
    have hturn : s.nextTurn = a := by simp [State.nextTurn, ha]
    have hfirst := h.captureDue_le_step hv
    have hlater := ih (protocolInvariantIsKept s v h hv) (by rw [h.step_agenda hv, ha]; rfl) hrest
    have hcount : ticksIn (a :: ts) = ticksIn [a] + ticksIn ts := List.count_append (l₁ := [a])
    rw [hturn] at hfirst
    omega

/-- Settles O53: the clauses of the invariant, the bus reads, the falls and the ticks due, each by its lemma. -/
theorem sampleIsCapturedInsideTheReadWindow : Obligations.SampleIsCapturedInsideTheReadWindow := by
  intro s hs
  have h := hs.inv
  have hopen (hu : s.within 0x18 0x19) : s.out.chipSelect = false ∧ s.out.readStrobe = false :=
    ⟨h.selectLow (by omega), h.strobeLow (by omega)⟩
  have hcapture (hop : romOp s.cfg s.upc = .ok .capture0) : s.out.chipSelect = false ∧ s.out.readStrobe = false :=
    hopen (by simp [State.within, romOp_eq_capture0.1 hop])
  refine ⟨hcapture, fun t l v hstep _ hmem => ?_, fun t hstep => ⟨h.chipSelect_falls hstep, h.readStrobe_falls hstep⟩,
    fun hin => h.selectLow (by omega), fun hin => h.strobeLow (by omega),
    fun t he => (exec_dataFrame he).out (by simp), fun t ts rest ha hw hrun hu => ?_⟩
  · obtain ⟨i, hop, he, rfl | rfl⟩ := h.capture_of_readByte hstep hmem
    · exact .inl (hcapture hop)
    · obtain ⟨hat, hdiag⟩ := romOp_eq_capture1.1 hop
      obtain ⟨hlow, hhigh⟩ := (exec_dataFrame he).bytes (by simp)
      exact .inr ⟨hat, hdiag, hlow.trans s.beginTurn_lowByte, hhigh.trans s.beginTurn_highByte⟩
  · have hdue : s.captureDue ≤ ticksIn ts := by
      simpa [State.captureDue, hu] using h.captureDue_le_run ha hrun
    refine ⟨fun h16 => ?_, fun h18 => ?_⟩
    · simpa [State.captureDue, State.owed, h16, hw] using hdue
    · simpa [State.captureDue, State.owed, h18, hw] using hdue

end Sys2Proof.Machine
end

section
/-! PROOFS. Every command ends on a fair schedule, and a wait without ticks is a hang (`70_reset_and_hazards.md`
R236). -/

namespace Sys2Proof.Machine

variable {s t u x y : State} {f : Nat → Turn} {i : Instr} {a : Turn} {m n : Nat} {rest : List Turn}

/-! ## The schedule behind a turn makes no difference to it -/

/-- The same state with other turns still to be taken. -/
def State.withAgenda (s : State) (as : List Turn) : State := { s with agenda := as }

theorem State.withAgenda_ite {P : Prop} [Decidable P] {x' y' : State} (hx : x' = x.withAgenda rest)
    (hy : y' = y.withAgenda rest) : (if P then x' else y') = (if P then x else y).withAgenda rest := by
  split <;> assumption

theorem State.withAgenda_presentCommand (c : CmdCode) :
    (s.withAgenda rest).presentCommand c = (s.presentCommand c).withAgenda rest :=
  State.withAgenda_ite (State.withAgenda_ite rfl (State.withAgenda_ite rfl rfl)) rfl

/-- An instruction neither looks at the agenda nor changes it. -/
theorem exec_withAgenda (h : exec i s = .next t) : exec i (s.withAgenda rest) = .next (t.withAgenda rest) := by
  have hcfg : (s.withAgenda rest).cfg = s.cfg := rfl
  cases i with
  | nop | sample | ret m | ret2 =>
    obtain rfl := Host.Outcome.next.inj h
    rfl
  | wcmd =>
    obtain rfl := Host.Outcome.next.inj h
    exact congrArg Host.Outcome.next (State.withAgenda_ite (State.withAgenda_presentCommand _) rfl)
  | cmdReset | cmdTriggerAndRead =>
    obtain rfl := Host.Outcome.next.inj h
    exact congrArg Host.Outcome.next (State.withAgenda_presentCommand _)
  | set l v =>
    have hdrive : (s.withAgenda rest).driveLine l v = (s.driveLine l v).map (·.withAgenda rest) := by
      rw [State.driveLine, State.driveLine, Option.map_map]
      rfl
    simp only [exec, execSet, hcfg, hdrive] at h ⊢
    cases hd : dirOf s.cfg l with
    | input =>
      simp only [hd, Host.Outcome.next.injEq] at h
      subst h
      exact congrArg Host.Outcome.next (State.withAgenda_ite rfl rfl)
    | output =>
      cases ho : s.driveLine l v <;> simp only [hd, ho, Host.Outcome.next.injEq, reduceCtorEq] at h
      subst h
      rfl
  | wait k b =>
    obtain ⟨q, hq, -⟩ := execWait_cases h
    simp only [exec, execWait, hcfg, hq, Host.Outcome.next.injEq] at h ⊢
    subst h
    exact State.withAgenda_ite (State.withAgenda_ite rfl rfl) (State.withAgenda_ite rfl rfl)
  | poll l v =>
    simp only [exec, execPoll, hcfg] at h ⊢
    cases hp : pollable s.cfg l <;>
      simp only [hp, if_true, Bool.false_eq_true, if_false, Host.Outcome.next.injEq] at h ⊢ <;> subst h
    · rfl
    · exact State.withAgenda_ite rfl (State.withAgenda_ite rfl rfl)
  | capture0 | capture1 =>
    simp only [exec, execCapture0, execCapture1, hcfg] at h ⊢
    cases hb : misconfiguredBus s.cfg <;> simp only [hb, Host.Outcome.next.injEq] at h <;> subst h <;> rfl

/-- Nor does the turn of an outside agent. -/
theorem State.outsideTurn_withAgenda (a : Turn) (s : State) :
    (s.withAgenda rest).outsideTurn a = (s.outsideTurn a).withAgenda rest := by
  cases a with
  | sequencer => rfl
  | tick => exact State.withAgenda_ite rfl (State.withAgenda_ite rfl rfl)
  | device _ _ _ | host _ _ => exact State.withAgenda_ite rfl rfl
  | hwreset _ => exact State.withAgenda_ite rfl (State.withAgenda_ite rfl rfl)


/-! ## One turn of a schedule -/

/-- What a state needs so that every turn but HWRESET can be taken: the invariant, and `hwreset_i` released. -/
structure State.Live (s : State) : Prop where
  inv : s.Inv
  released : s.pins.hwreset = false

/-- The turn that the state waits for: a tick while it is held, else the Sequencer's. -/
def State.dueTurn (s : State) : Turn := if s.held then .tick else .sequencer

theorem Alike.dueTurn (h : Alike s u) : u.dueTurn = s.dueTurn := by rw [State.dueTurn, State.dueTurn, h.held]

/-- The invariant speaks of nothing that the outside agents and the schedule change. -/
theorem Alike.inv (h : Alike s u) (hs : s.Inv) : u.Inv := by
  obtain ⟨_, _, _, _, rfl⟩ := h
  refine Moves.inv (s := s) ?_ hs
  exact hs.rests ⟨rfl, rfl, rfl, rfl, rfl, rfl, rfl, rfl, rfl⟩ rfl rfl

/-- The state with nothing on the Report port. -/
def State.silenced (s : State) : State := { s with report := none }

theorem State.alike_silenced (s : State) : Alike s s.silenced := ⟨_, _, _, _, rfl⟩

theorem State.Live.runnable (h : s.Live) : s.silenced.Runnable := ⟨h.inv.legal, h.released, rfl⟩

/-- The tick that a held state waits for. -/
theorem State.Live.takes_tick (h : s.Live) : Takes s [.tick] s.silenced.tick :=
  .of_cleared <| .outside h.runnable (by simp) fun _ =>
    (if_neg (by simp [h.released])).trans (State.withAgenda_ite rfl rfl)

/-- The Sequencer's turn that any other state waits for. -/
theorem State.Live.takes_op (h : s.Live) (hfree : s.held = false) :
    ∃ i u, romOp s.cfg s.upc = .ok i ∧ exec i s.silenced = .next u ∧ Takes s [.sequencer] u := by
  have hrom : s.silenced.rom = [] := h.inv.specRom
  obtain ⟨i, hop⟩ := exists_romOp s.cfg s.upc
  obtain ⟨u, hu⟩ := runFetched_of_specRom hrom
  have he : exec i s.silenced = .next u := by
    rw [← runFetched_of_decode (by rw [hrom, Rom.word_nil]; exact hop), hu]
  exact ⟨i, u, hop, he, .of_cleared (.op h.runnable hrom hfree hop fun _ => exec_withAgenda he)⟩

/-- Any other turn changes nothing but the input ports and the schedule. -/
theorem State.Live.takes_other (h : s.Live) (ha : a ≠ .hwreset true) (hdue : a ≠ s.dueTurn) :
    ∃ u, Takes s [a] u ∧ Alike s u ∧ u.Live := by
  suffices hu : ∃ u, Takes s.silenced [a] u ∧ Alike s u ∧ u.pins.hwreset = false by
    obtain ⟨u, htakes, halike, hr⟩ := hu
    exact ⟨u, .of_cleared htakes, halike, halike.inv h.inv, hr⟩
  by_cases hseq : a = .sequencer
  · subst hseq
    have hheld : s.held = true := by
      by_contra hfree
      simp [State.dueTurn, hfree] at hdue
    refine ⟨s.silenced, .of_step fun rest => ?_, s.alike_silenced, h.released⟩
    rw [step_of_sequencer (s := { s.silenced with agenda := .sequencer :: rest }) h.inv.legal rfl h.released,
      h.runnable.beginTurn]
    exact if_pos hheld
  · refine ⟨_, .outside h.runnable hseq fun rest => s.silenced.outsideTurn_withAgenda a, ?_⟩
    rcases State.outsideTurn_of_released h.runnable.released ha with ⟨rfl, heq⟩ | ⟨p, hp, heq⟩ <;> rw [heq]
    · have hfree : ¬s.silenced.held = true := fun hheld => by
        have hheld' : s.held = true := hheld
        simp [State.dueTurn, hheld'] at hdue
      rw [State.tick_eq, if_neg hfree]
      exact ⟨s.alike_silenced, h.released⟩
    · exact ⟨s.alike_silenced.withPins p, hp⟩

/-! ## A schedule -/

/-- The first `n` turns of the schedule `f` carry `s` to `t`. -/
def Reaches (s : State) (f : Nat → Turn) (n : Nat) (t : State) : Prop := Takes s ((List.range n).map f) t

theorem Reaches.zero (s : State) (f : Nat → Turn) : Reaches s f 0 s := .refl s

theorem Reaches.succ (h : Reaches s f n t) (hu : Takes t [f n] u) : Reaches s f (n + 1) u := by
  have hturns : (List.range (n + 1)).map f = (List.range n).map f ++ [f n] := by
    rw [List.range_succ, List.map_append, List.map_singleton]
  rw [Reaches, hturns]
  exact Takes.trans h hu

theorem Reaches.follow (h : Reaches s f n t) : s.follow f n = .next (t.withAgenda []) := by
  have hrun := h []
  rwa [List.append_nil, List.length_map, List.length_range] at hrun

/-- On a fair schedule the turn that a state waits for eventually comes. -/
theorem Fair.due_comes (hf : Fair s f) (h : Reaches s f n t) : ∃ m, n ≤ m ∧ f m = t.dueTurn := by
  unfold State.dueTurn
  cases hheld : t.held with
  | true => exact hf.timebase n _ h.follow hheld
  | false => exact hf.sequencer n _ h.follow hheld

/-- Until then nothing but the input ports and the schedule changes. -/
theorem Reaches.exists_due (h : Reaches s f n t) (ht : t.Live) (hno : neverHwReset f) (hm : n ≤ m)
    (hdue : f m = t.dueTurn) : ∃ n' u, Reaches s f n' u ∧ Alike t u ∧ u.Live ∧ f n' = u.dueTurn := by
  induction hm using Nat.decreasingInduction generalizing t with
  | self => exact ⟨m, t, h, .refl t, ht, hdue⟩
  | of_succ k hk ih =>
    by_cases hnow : f k = t.dueTurn
    · exact ⟨k, t, h, .refl t, ht, hnow⟩
    · obtain ⟨u, htakes, halike, hu⟩ := ht.takes_other (hno k) hnow
      obtain ⟨n', w, hreach, halike', hlive, hdue'⟩ := ih (h.succ htakes) hu (hdue.trans halike.dueTurn.symm)
      exact ⟨n', w, hreach, halike.trans halike', hlive, hdue'⟩


/-! ## How far a command is from its end -/

/-- How many more polls the bound allows. -/
def State.pollsLeft (s : State) : Nat := s.cfg.maxBusyPolls.toNat - s.pollCnt.toNat

/-- A rank that falls on the way through the routines. The wait of the poll loop stands before the poll that it goes
back to. -/
def stepsLeft (a : StepAddr) : Nat :=
  if a.toNat ≤ 0x01 then 0 else if a = 0x12#6 then 2 * (0x25 - 0x11) + 1 else 2 * (0x25 - a.toNat)

/-- The ticks that a wait is owed; a wait that has not begun may be owed any number of them. -/
def State.ticksLeft (s : State) : Nat := if s.waiting then s.waitCnt.toNat else 2 ^ 32

/-- The polls, the steps and the ticks that are left, in this order of weight. -/
def State.left (s : State) : Nat ×ₗ Nat ×ₗ Nat := toLex (s.pollsLeft, toLex (stepsLeft s.upc, s.ticksLeft))

theorem State.left_lt : t.left < s.left ↔
    t.pollsLeft < s.pollsLeft ∨ t.pollsLeft = s.pollsLeft ∧
      (stepsLeft t.upc < stepsLeft s.upc ∨ stepsLeft t.upc = stepsLeft s.upc ∧ t.ticksLeft < s.ticksLeft) := by
  simp [State.left, Prod.Lex.toLex_lt_toLex]

theorem Alike.left (h : Alike s u) : u.left = s.left := by
  obtain ⟨_, _, _, _, rfl⟩ := h
  rfl

/-- Without a poll counted, a step to an address of lower rank leaves less. -/
theorem State.left_lt_of_steps (hcfg : t.cfg = s.cfg) (hpoll : t.pollCnt = s.pollCnt)
    (hsteps : stepsLeft t.upc < stepsLeft s.upc) : t.left < s.left :=
  State.left_lt.2 (.inr ⟨by rw [State.pollsLeft, State.pollsLeft, hcfg, hpoll], .inl hsteps⟩)

/-- A tick that counts leaves less. -/
theorem State.tick_left_lt (hheld : s.held = true) : s.tick.left < s.left := by
  obtain ⟨hw, hc⟩ := State.held_eq_true.1 hheld
  rw [State.tick_eq, if_pos hheld]
  refine State.left_lt.2 (.inr ⟨rfl, .inr ⟨rfl, ?_⟩⟩)
  simp only [State.ticksLeft, hw, if_true]
  bv_omega

/-- The rank falls from each address but that of the poll to those that follow it. -/
theorem stepsLeft_lt_of_follows {a b : StepAddr} (h : Follows a b) (hpoll : a ≠ 0x11#6) :
    stepsLeft b < stepsLeft a := by
  have key : ∀ a : StepAddr, InsideRoutine a.toNat → a ≠ 0x11#6 → stepsLeft (a + 1#6) < stepsLeft a := by decide
  rcases h with ⟨hin, rfl⟩ | ⟨rfl, -⟩ | ⟨rfl, rfl⟩
  · exact key a hin hpoll
  · exact absurd rfl hpoll
  · decide

/-- The abort entry has a lower rank than every address at which an error can be raised. -/
theorem stepsLeft_abortEntry_lt {a : StepAddr} (h : MayRaiseAt a.toNat) : stepsLeft 0x1F#6 < stepsLeft a := by
  have key : ∀ a : StepAddr, MayRaiseAt a.toNat → stepsLeft 0x1F#6 < stepsLeft a := by decide
  exact key a h

/-- Inside a command a move away from any address but that of the poll leads to one of lower rank. -/
theorem Moves.stepsLeft_lt (h : Moves s t) (hbusy : s.cmdReady = false) (hpoll : s.upc ≠ 0x11#6)
    (hmoved : t.upc ≠ s.upc) : stepsLeft t.upc < stepsLeft s.upc := by
  have hquiet : s.upc ≠ 0x00#6 ∧ s.upc ≠ 0x01#6 := by
    rw [← not_or, ← State.cmdReady_eq_true, hbusy]
    exact Bool.false_ne_true
  cases h with
  | stays m => exact absurd m.upc hmoved
  | begins m =>
    rcases m.entry with ⟨hu, -⟩ | ⟨hu, -⟩
    · bv_omega
    · exact absurd hu hquiet.2
  | goesOn m => exact stepsLeft_lt_of_follows m.follows hpoll
  | raises m =>
    rw [m.upc]
    exact stepsLeft_abortEntry_lt m.point
  | returns m =>
    rcases m.exit with ⟨hu | hu, ht⟩ | ⟨hu, ht⟩ <;> rw [hu, ht]
    · decide
    · decide
    · split <;> decide

/-- What a micro-op other than WCMD and POLL does to the count of polls and to the address: only a WAIT can stay. -/
theorem exec_pollCnt_upc (h : s.Inv) (hop : romOp s.cfg s.upc = .ok i) (hwcmd : i ≠ .wcmd)
    (hpoll : ∀ l v, i ≠ .poll l v) (he : exec i s = .next t) :
    t.pollCnt = s.pollCnt ∧ (t.upc = s.upc → ∃ k b, i = .wait k b) := by
  have hnext : s.upc + 1#6 ≠ s.upc := by bv_omega
  have hat := romOp_standsAt hop
  cases i with
  | nop | sample =>
    obtain rfl := Host.Outcome.next.inj he
    exact ⟨rfl, fun hu => absurd hu hnext⟩
  | set l v =>
    rcases execSet_cases he with ⟨-, -, rfl⟩ | ⟨-, hidle, rfl⟩ | ⟨-, o, -, rfl⟩
    · exact ⟨rfl, fun hu => absurd hu hnext⟩
    · refine ⟨rfl, fun hu => ?_⟩
      have hlt := h.upc_lt_abortEntry hidle
      simp [← hu] at hlt
    · exact ⟨rfl, fun hu => absurd hu hnext⟩
  | wait k b =>
    obtain ⟨n, -, ⟨-, -, rfl⟩ | ⟨-, -, rfl⟩ | ⟨-, -, rfl⟩ | ⟨-, -, rfl⟩⟩ := execWait_cases he <;>
      exact ⟨rfl, fun _ => ⟨k, b, rfl⟩⟩
  | poll l v => exact absurd rfl (hpoll l v)
  | capture0 =>
    rcases execCapture0_cases he with ⟨m, -, rfl⟩ | ⟨-, rfl⟩
    · refine ⟨rfl, fun hu => ?_⟩
      simp [standsAt, ← hu] at hat
    · exact ⟨rfl, fun hu => absurd hu hnext⟩
  | capture1 =>
    rcases execCapture1_cases he with ⟨m, -, rfl⟩ | ⟨-, rfl⟩
    · refine ⟨rfl, fun hu => ?_⟩
      simp [standsAt, ← hu] at hat
    · exact ⟨rfl, fun hu => absurd hu hnext⟩
  | ret m =>
    obtain rfl : s.goto (m.setWidth 6) = t := Host.Outcome.next.inj he
    refine ⟨rfl, fun hu => ?_⟩
    have hinside : 0x0D ≤ s.upc.toNat := by
      simp only [standsAt] at hat
      split at hat <;> simp at hat <;> omega
    rcases BitVec.eq_zero_or_eq_one m with rfl | rfl <;> simp [← hu] at hinside
  | ret2 =>
    obtain rfl : s.endAbort = t := Host.Outcome.next.inj he
    refine ⟨rfl, fun hu => ?_⟩
    rw [romOp_eq_ret2.1 hop, State.endAbort_upc] at hu
    split at hu <;> simp at hu
  | wcmd => exact absurd rfl hwcmd
  | cmdReset | cmdTriggerAndRead => simp [standsAt] at hat

/-- A counted poll leaves less. -/
theorem State.left_lt_of_poll (hcfg : t.cfg = s.cfg) (hroom : s.pollCnt.toNat < s.cfg.maxBusyPolls.toNat)
    (hpoll : t.pollCnt = s.pollCnt + 1#32) : t.left < s.left := by
  refine State.left_lt.2 (.inl ?_)
  have hcount : (s.pollCnt + 1#32).toNat = s.pollCnt.toNat + 1 := by bv_omega
  rw [State.pollsLeft, State.pollsLeft, hcfg, hpoll, hcount]
  omega

/-- A WAIT that is executed where it is not held begins, or its end leads on. -/
theorem wait_left_lt {k : BitVec 3} {b : Bool} (hmoves : Moves s t) (hop : romOp s.cfg s.upc = .ok (.wait k b))
    (he : exec (.wait k b) s = .next t) (hfree : s.held = false) : t.left < s.left := by
  have hbusy : s.cmdReady = false := cmdReady_of_romOp hop (by simp)
  have hpoll : s.upc ≠ 0x11#6 := fun hu => by
    have hat := romOp_standsAt hop
    cases b <;> simp [standsAt, hu] at hat
  have hafter : s.afterWait b ≠ s.upc := by
    unfold State.afterWait
    split <;> bv_omega
  obtain ⟨n, -, hcases⟩ := execWait_cases he
  rcases hcases with ⟨-, -, rfl⟩ | ⟨hw, hc, -⟩ | ⟨-, -, rfl⟩ | ⟨hw, -, rfl⟩
  · exact State.left_lt_of_steps rfl rfl (hmoves.stepsLeft_lt hbusy hpoll hafter)
  · rw [State.held_eq_true.2 ⟨hw, hc⟩] at hfree
    cases hfree
  · exact State.left_lt_of_steps rfl rfl (hmoves.stepsLeft_lt hbusy hpoll hafter)
  · refine State.left_lt.2 (.inr ⟨rfl, .inr ⟨rfl, ?_⟩⟩)
    simp only [State.ticksLeft, hw, if_true, Bool.false_eq_true, if_false]
    exact n.isLt

/-- The POLL at 0x11 is counted, or its line is misconfigured. -/
theorem poll_left_lt {l : Line} {v : Bool} (h : s.Inv) (hop : romOp s.cfg s.upc = .ok (.poll l v))
    (he : exec (.poll l v) s = .next t) : t.left < s.left := by
  have hu : s.upc = 0x11#6 := (romOp_eq_poll.1 hop).1
  have hroom : s.pollCnt.toNat < s.cfg.maxBusyPolls.toNat := h.pollRoom (by simp [State.within, hu])
  rcases execPoll_cases he with ⟨-, rfl⟩ | ⟨-, ⟨-, rfl⟩ | ⟨-, -, rfl⟩ | ⟨-, -, rfl⟩⟩
  · exact State.left_lt_of_steps rfl rfl (stepsLeft_abortEntry_lt (by simp [hu, MayRaiseAt]))
  all_goals exact State.left_lt_of_poll rfl hroom rfl

/-- Inside a command every micro-op that is executed leaves less. -/
theorem exec_left_lt (h : s.Inv) (hop : romOp s.cfg s.upc = .ok i) (he : exec i s = .next t)
    (hbusy : s.cmdReady = false) (hfree : s.held = false) : t.left < s.left := by
  have hmoves := exec_moves h hop he
  have hwcmd : i ≠ .wcmd := by
    rintro rfl
    have hu := ((readyExactlyWhereTheRomHoldsWcmd.2 s.cfg s.upc).1 hop)
    rw [State.cmdReady_eq_true.2 hu] at hbusy
    cases hbusy
  by_cases hp : ∃ l v, i = .poll l v
  · obtain ⟨l, v, rfl⟩ := hp
    exact poll_left_lt h hop he
  by_cases hw : ∃ k b, i = .wait k b
  · obtain ⟨k, b, rfl⟩ := hw
    exact wait_left_lt hmoves hop he hfree
  obtain ⟨hcnt, hstays⟩ := exec_pollCnt_upc h hop hwcmd (fun l v hi => hp ⟨l, v, hi⟩) he
  have hu : s.upc ≠ 0x11#6 := fun hu =>
    hp ⟨_, _, Except.ok.inj (hop.symm.trans (romOp_eq_poll.2 ⟨hu, rfl, rfl⟩))⟩
  exact State.left_lt_of_steps (exec_sameSurroundings he).cfg hcnt (hmoves.stepsLeft_lt hbusy hu (mt hstays hw))

/-! ## The end of a command, and the hang -/

/-- The turn that a state inside a command waits for leaves less. -/
theorem State.Live.takes_due (h : s.Live) (hbusy : s.cmdReady = false) :
    ∃ u, Takes s [s.dueTurn] u ∧ u.Live ∧ u.left < s.left := by
  have hinv : s.silenced.Inv := s.alike_silenced.inv h.inv
  unfold State.dueTurn
  cases hheld : s.held with
  | true =>
    refine ⟨_, h.takes_tick, ⟨hinv.tick_moves.inv hinv, ?_⟩, State.tick_left_lt (s := s.silenced) hheld⟩
    rw [State.tick_eq]
    split <;> exact h.released
  | false =>
    obtain ⟨i, u, hop, he, htakes⟩ := h.takes_op hheld
    refine ⟨u, htakes, ⟨(exec_moves hinv hop he).inv hinv, ?_⟩, exec_left_lt (s := s.silenced) hinv hop he hbusy hheld⟩
    rw [(exec_sameSurroundings he).pins]
    exact h.released

/-- By induction on what is left: on a fair schedule a quiescent address is reached. -/
theorem Reaches.exists_ready (h : Reaches s f n t) (ht : t.Live) (hno : neverHwReset f) (hf : Fair s f) :
    ∃ n' u, Reaches s f n' u ∧ u.Live ∧ u.cmdReady = true := by
  induction hleft : t.left using WellFoundedLT.induction generalizing n t with
  | ind left ih =>
    cases hready : t.cmdReady with
    | true => exact ⟨n, t, h, ht, hready⟩
    | false =>
      obtain ⟨m, hm, hdue⟩ := hf.due_comes h
      obtain ⟨n', u, hreach, halike, hu, hturn⟩ := h.exists_due ht hno hm hdue
      obtain ⟨w, htakes, hw, hless⟩ := hu.takes_due (halike.cmdReady.trans hready)
      exact ih w.left (by rwa [← hleft, ← halike.left]) (hreach.succ (hturn ▸ htakes)) hw rfl

/-- At a quiescent address no wait is in progress and no error is being handled. -/
theorem State.Inv.quiescent (h : s.Inv) (hready : s.cmdReady = true) : s.waiting = false ∧ s.aborting = false := by
  have hop : romOp s.cfg s.upc = .ok .wcmd :=
    (readyExactlyWhereTheRomHoldsWcmd.2 s.cfg s.upc).2 (State.cmdReady_eq_true.1 hready)
  refine ⟨(h.notWaiting_of_op hop (by simp)).1, h.not_aborting ?_⟩
  rcases State.cmdReady_eq_true.1 hready with hu | hu <;> simp [hu]

/-- Settles O59: the turns that a command waits for come one after the other and leave ever less; without ticks the wait
goes on as O29 says. -/
theorem everyCommandEndsUnderFairness : Obligations.EveryCommandEndsUnderFairness := by
  refine ⟨fun s f hinv hr hno hf => ?_, fun s f hl hr hheld hno hticks n => ?_⟩
  · obtain ⟨n, u, hreach, hu, hready⟩ := (Reaches.zero s f).exists_ready ⟨hinv, hr⟩ hno hf
    obtain ⟨hw, ha⟩ := hu.inv.quiescent hready
    exact ⟨n, _, hreach.follow, hready, hw, ha⟩
  · obtain ⟨hw, hc⟩ := State.held_eq_true.1 hheld
    have howed : 0 < s.waitCnt.toNat := Nat.pos_of_ne_zero fun hz => hc (BitVec.eq_of_toNat_eq hz)
    have hnone : ticksIn ((List.range n).map f) = 0 := List.count_eq_zero.2 (by simp [hticks])
    have hquiet : .hwreset true ∉ (List.range n).map f := by simp [hno _]
    obtain ⟨t, hrun, hwait, hcnt, hu, hout, htranscript, -⟩ :=
      waitDoesNotReturnEarly (s.withAgenda ((List.range n).map f)) ((List.range n).map f) [] hl hr hw
        (List.append_nil _).symm hquiet (by rw [hnone]; exact howed)
    rw [List.length_map, List.length_range] at hrun
    rw [hnone, Nat.sub_zero] at hcnt
    refine ⟨t, hrun, State.held_eq_true.2 ⟨hwait, fun hz => ?_⟩, hu, hout, htranscript⟩
    exact hc (BitVec.eq_of_toNat_eq (hcnt.symm.trans (by rw [hz])))

end Sys2Proof.Machine
end
